-- ==== Sys2Proof/Word.lean ====
section
/-! DEFINITION. The words the part's frames are made of: a byte, and the 16- and 32-bit values coded in them. -/
namespace Sys2Proof

/-- One byte of a frame. -/
abbrev Byte := BitVec 8

/-- A two-byte value of a frame. -/
abbrev Half := BitVec 16

/-- A four-byte value of a frame. -/
abbrev Word := BitVec 32

end Sys2Proof
end

