-- ==== Sys2Proof/Syntax.lean ====
section
/-! DEFINITION. The commands of the part: one constructor of `Instr` per row of spec/opcode_table.json, with the row's operands.
The arguments of a request are the fields of its payload as the frame codes them (R209), so that a value out of range
can be asked for and is judged by its owning unit (R183, R186). -/
namespace Sys2Proof

/-- A zone, Z0 to Z15 (00 section 5). -/
abbrev Zone := Fin 16

/-- A door: 2z the outer door of zone z, 2z+1 its inner door (00 section 5). -/
abbrev DoorId := Fin 32

/-- A field loop (R163). -/
abbrev LoopId := Fin 2

/-- A station's place in its loop's table: its loop address less one (R165). -/
abbrev SlotId := Fin 16

/-- A supervised direct input, numbered as R176 gives. -/
abbrev LineId := Fin 66

/-- A roster pool slot, the entry number of the entry it holds (R3). -/
abbrev EntryNo := Fin 96

/-- A badge number (00 section 5). -/
abbrev Badge := Word

/-- The three master ports, by wired role (R182). -/
inductive PortId where
  | access
  | suppression
  | guard
  deriving DecidableEq, Repr

/-- The two actuator rails (R48). -/
inductive Rail where
  | a
  | b
  deriving DecidableEq, Repr

/-- The level a supervised line presents (R176). -/
inductive Level where
  | normal
  | active
  | openCircuit
  | short
  deriving DecidableEq, Repr

/-- The records start-up loads one by one (R205): the part record with the schedule, the zone records, the control record. -/
inductive RecordId where
  | part
  | zone (z : Zone)
  | control
  deriving DecidableEq, Repr

/-- What READ_CONFIG names (R204). -/
inductive ConfigSelector where
  | part
  | control
  | schedule
  | zone (zone : Byte)
  deriving DecidableEq, Repr

/-- The fields of VERDICT (R59). -/
structure VerdictArgs where
  queryId : Byte
  badge : Badge
  outcome : Byte
  role : Byte
  afterHours : Byte
  rights : Half
  lifetime : Word
  deriving DecidableEq, Repr

/-- One entry of CACHE_LOAD (R63). -/
structure CacheArgs where
  badge : Badge
  role : Byte
  rights : Half
  afterHours : Byte
  lifetime : Word
  deriving DecidableEq, Repr

/-- What CACHE_PURGE names (R63). -/
inductive BadgeOrAll where
  | badge (badge : Badge)
  | all
  deriving DecidableEq, Repr

/-- One window of a schedule, with its day set coded bit i for the i-th day (R84, R209). -/
structure WindowArgs where
  days : Byte
  start : Half
  stop : Half
  deriving DecidableEq, Repr

/-- The part form of WRITE_PASSAGE_CONFIG, in the order R200 names its fields. -/
structure PartFields where
  releaseWindow : Option Byte
  heldOpenLimit : Option Half
  pairingWindow : Option Byte
  sweepInterval : Option Half
  loopRate : Option Byte
  deriving DecidableEq, Repr

/-- The zone form of WRITE_PASSAGE_CONFIG, in the order of the table of R199. -/
structure ZoneFields where
  outerRail : Option Byte
  innerRail : Option Byte
  outerConfigured : Option Byte
  innerConfigured : Option Byte
  cap : Option Byte
  pinAfterHours : Option Byte
  travelLimit : Option Half
  loneInterval : Option Byte
  deriving DecidableEq, Repr

/-- The two forms of WRITE_PASSAGE_CONFIG (R200). -/
inductive PassageForm where
  | part (fields : PartFields)
  | zone (zone : Byte) (fields : ZoneFields)
  deriving DecidableEq, Repr

/-- The fields of WRITE_SUPPRESSION_CONFIG, in the order of the table of R146. -/
structure SuppressionFields where
  coincidence : Option Byte
  preDischarge : Option Byte
  resume : Option Byte
  confirmTime : Option Byte
  soakTime : Option Half
  deriving DecidableEq, Repr

/-- A subject as an alarm key carries it: the forms of R210 with their value bytes. -/
inductive SubjectArgs where
  | none
  | badge (badge : Badge)
  | door (value : Byte)
  | station (value : Byte)
  | line (value : Byte)
  | loop (value : Byte)
  deriving DecidableEq, Repr

/-- An alarm key as a request carries it (R101, R209). -/
structure KeyArgs where
  kind : Byte
  zone : Byte
  subject : SubjectArgs
  deriving DecidableEq, Repr

/-- What ACK_ALARM names: a key with an optional seen count, or ALL (R112). -/
inductive AckArgs where
  | key (key : KeyArgs) (seen : Option Byte)
  | all
  deriving DecidableEq, Repr

/-- What CLEAR_ALARM names (R113). -/
inductive ClearArgs where
  | key (key : KeyArgs)
  | all
  deriving DecidableEq, Repr

/-- What LOCKDOWN and END_LOCKDOWN name (R45). -/
inductive ZoneOrAll where
  | zone (zone : Byte)
  | all
  deriving DecidableEq, Repr

/-- A request as a port's slot holds it: the requests of R185, NONE and the reset frame left out, since neither
is placed in the slot (R183). -/
inductive Request where
  | readZone (zone : Byte)
  | readRoster (zone first : Byte)
  | readDoor (door : Byte)
  | readAlarms (first : Byte)
  | readSuppression (zone : Byte)
  | readStatus
  | readConfig (which : ConfigSelector)
  | fetchNotice
  | verdict (args : VerdictArgs)
  | cacheLoad (entries : List CacheArgs)
  | cachePurge (which : BadgeOrAll)
  | setClock (value : Word)
  | writeSchedule (windows : List WindowArgs)
  | holdDoor (door : Byte)
  | secureDoor (door : Byte)
  | writePassageConfig (form : PassageForm)
  | detect (zone detector : Byte)
  | clearDetect (zone detector : Byte)
  | holdZone (zone : Byte)
  | unholdZone (zone : Byte)
  | cancel (zone : Byte)
  | forceRelease (zone : Byte)
  | vent (zone : Byte)
  | restore (zone : Byte)
  | isolate (zone : Byte)
  | deisolate (zone : Byte)
  | writeSuppressionConfig (zone : Byte) (fields : SuppressionFields)
  | ackAlarm (which : AckArgs)
  | clearAlarm (which : ClearArgs)
  | resolveZone (zone : Byte)
  | verifyZone (zone inner vestibule : Byte)
  | removeOccupant (badge : Badge)
  | lockdown (which : ZoneOrAll)
  | endLockdown (which : ZoneOrAll)
  | concurForce (zone : Byte)
  | sweepAll
  | excludeSweep (zone : Byte)
  | includeSweep (zone : Byte)
  | setService (zone direction : Byte)
  | enableForceChord (value : Byte)
  deriving DecidableEq, Repr

/-- The commands: the rows of spec/opcode_table.json in the table's order. -/
inductive Instr where
  -- reset and start-up
  | reset
  | recordLoad (record : RecordId)
  -- the port link
  | frameReceived (port : PortId) (bytes : List Byte)
  | transactionCutShort (port : PortId)
  | selectHeldTimeout (port : PortId)
  -- requests of all ports
  | readZone (port : PortId) (zone : Byte)
  | readRoster (port : PortId) (zone first : Byte)
  | readDoor (port : PortId) (door : Byte)
  | readAlarms (port : PortId) (first : Byte)
  | readSuppression (port : PortId) (zone : Byte)
  | readStatus (port : PortId)
  | readConfig (port : PortId) (which : ConfigSelector)
  | fetchNotice (port : PortId)
  -- requests of the access port
  | verdict (port : PortId) (args : VerdictArgs)
  | cacheLoad (port : PortId) (entries : List CacheArgs)
  | cachePurge (port : PortId) (which : BadgeOrAll)
  | setClock (port : PortId) (value : Word)
  | writeSchedule (port : PortId) (windows : List WindowArgs)
  | holdDoor (port : PortId) (door : Byte)
  | secureDoor (port : PortId) (door : Byte)
  | writePassageConfig (port : PortId) (form : PassageForm)
  -- requests of the suppression port
  | detect (port : PortId) (zone detector : Byte)
  | clearDetect (port : PortId) (zone detector : Byte)
  | holdZone (port : PortId) (zone : Byte)
  | unholdZone (port : PortId) (zone : Byte)
  | cancel (port : PortId) (zone : Byte)
  | forceRelease (port : PortId) (zone : Byte)
  | vent (port : PortId) (zone : Byte)
  | restore (port : PortId) (zone : Byte)
  | isolate (port : PortId) (zone : Byte)
  | deisolate (port : PortId) (zone : Byte)
  | writeSuppressionConfig (port : PortId) (zone : Byte) (fields : SuppressionFields)
  -- requests of the guard port
  | ackAlarm (port : PortId) (which : AckArgs)
  | clearAlarm (port : PortId) (which : ClearArgs)
  | resolveZone (port : PortId) (zone : Byte)
  | verifyZone (port : PortId) (zone inner vestibule : Byte)
  | removeOccupant (port : PortId) (badge : Badge)
  | lockdown (port : PortId) (which : ZoneOrAll)
  | endLockdown (port : PortId) (which : ZoneOrAll)
  | concurForce (port : PortId) (zone : Byte)
  | sweepAll (port : PortId)
  | excludeSweep (port : PortId) (zone : Byte)
  | includeSweep (port : PortId) (zone : Byte)
  | setService (port : PortId) (zone direction : Byte)
  | enableForceChord (port : PortId) (value : Byte)
  -- the store
  | storeCommit
  -- the field loops
  | loopExchange (loop : LoopId)
  | stationReply (loop : LoopId) (bytes : List Byte)
  | replyWindowMiss (loop : LoopId)
  | loopBreak (loop : LoopId)
  | loopRestored (loop : LoopId)
  -- timers
  | queryTimeout (queryId : Byte)
  | cacheExpiry (badge : Badge)
  | settleEnd (door : DoorId)
  | queuedWaitExpiry (door : DoorId)
  | railRoom (rail : Rail)
  | boltTimerExpiry (door : DoorId)
  | windowLapse (door : DoorId)
  | heldOpenExpiry (door : DoorId)
  | minuteBoundary
  | loneWorkerDeadlineExpiry (entry : EntryNo)
  | warningLeadReached (entry : EntryNo)
  | warnCheckinResend (zone : Zone)
  | pairExpired (zone : Zone)
  | countdownExpiry (zone : Zone)
  | confirmTimeout (zone : Zone)
  | soakComplete (zone : Zone)
  | forceWindowExpired
  | sweepIntervalExpiry
  | lineLevelTaken (line : LineId)
  | qualificationHoldExpiry (line : LineId)
  | chordQualifies
  | sounderCadence (zone : Zone)
  -- inputs and the end of a collection
  | candidateChange (line : LineId) (level : Level)
  | transactionEnd (port : PortId)
  deriving DecidableEq, Repr

end Sys2Proof
end

