-- ==== Sys2Proof/Config.lean ====
section
/-! DEFINITION. What the spec fixes as constants of the part, and the free values: values the spec leaves without a
number, which no proof can see (log entry 12). -/
namespace Sys2Proof.Config

/-- The settle time of a door, ms (R30). -/
def settleMs : Nat := 1500

/-- The limit on a non-egress release in QUEUED, ms (R32). -/
def queuedLimitMs : Nat := 10000

/-- The rail's rolling window, ms, and the withdrawals that may begin in it (R48). -/
def railWindowMs : Nat := 2000

/-- The withdrawals a rail may begin within the rolling window (R48). -/
def railBudget : Nat := 4

/-- The capacity of a rail queue (R49). -/
def railQueueCap : Nat := 8

/-- The verdict query table's capacity (R58). -/
def queryCap : Nat := 8

/-- The verdict query timeout, ms (R60). -/
def queryTimeoutMs : Nat := 750

/-- The credential cache's capacity (R62). -/
def cacheCap : Nat := 64

/-- The warning lead of a lone-worker deadline, s (R89, R90). -/
def warningLeadS : Nat := 120

/-- The interval at which WARN_CHECKIN is sent again, s (R90). -/
def warnResendS : Nat := 60

/-- The alarm queue's capacity (R101). -/
def alarmCap : Nat := 32

/-- The detection set's capacity (R119). -/
def detectionCap : Nat := 8

/-- The force window, ms (R141). -/
def forceWindowMs : Nat := 60000

/-- The deferral limit (R150). -/
def deferralLimit : Nat := 3

/-- The filter time of a supervised line, ms (R177). -/
def filterMs : Nat := 20

/-- The key chord's hold, ms (R180). -/
def chordMs : Nat := 3000

/-- A port's notice queue has this many places (R190). -/
def noticeCap : Nat := 48

/-- A port's drop count stays here once reached (R191). -/
def dropMax : Nat := 65535

/-- The longest a store write lasts, ms (R202). -/
def storeWriteMs : Nat := 40

/-- The week clock wraps at this many seconds (R82). -/
def weekSeconds : Nat := 604800

/-- The time base is 48 bits wide (00 section 5). -/
def timeBaseModulus : Nat := 281474976710656

/-- The longest lifetime of a cache entry, s (R59, R63). -/
def lifetimeMax : Nat := 86400

/-- The most hand-ons one step takes before the rest are carried to the next step (DESIGN CHOICE, log entry 5). -/
def handOnBound : Nat := 600

/-- FREE VALUE (log entry 12): the code of the i-th reason of a PASSAGE_DECIDED notice.
R209 numbers enumerated values by the owning rule's list, and no rule lists the reasons. -/
opaque passageReasonCode : Nat → Byte

/-- FREE VALUE (log entry 12): the code of the i-th cause of a FORCE_WINDOW notice, which no one rule lists. -/
opaque forceCauseCode : Nat → Byte

/-- FREE VALUE (log entry 12): the distress count an alarm notice carries when the alarm's zone is NONE. -/
opaque noZoneDistress : Byte

end Sys2Proof.Config
end

