-- ==== Sys2Proof/Machine/Records.lean ====
section
/-! DEFINITION. The records of the configuration store (R198, R199), the coding of values as bytes (R207, R209), and the two
CRCs (R208). -/
namespace Sys2Proof.Machine

/-- A number in one byte. -/
def byte1 (n : Nat) : List Byte := [BitVec.ofNat 8 n]

/-- A number in two bytes, most significant first (R207). -/
def byte2 (n : Nat) : List Byte := [BitVec.ofNat 8 (n / 256), BitVec.ofNat 8 n]

/-- A number in four bytes, most significant first (R207). -/
def byte4 (n : Nat) : List Byte := byte2 (n / 65536) ++ byte2 n

/-- A time in milliseconds of uptime, six bytes (R209). -/
def byte6 (n : Nat) : List Byte := byte2 (n / 4294967296) ++ byte4 n

/-- A flag, 0 or 1 (R209). -/
def byteFlag (b : Bool) : List Byte := [if b then 1 else 0]

/-- An optional field: a presence byte, then the value when present (R209). -/
def byteOption {α : Type} (f : α → List Byte) : Option α → List Byte
  | none => [0]
  | some a => 1 :: f a

/-- A list: a count byte, then the members in order (R209). -/
def byteList {α : Type} (f : α → List Byte) (l : List α) : List Byte :=
  byte1 l.length ++ l.flatMap f

/-- A set of listed values, bit i for the i-th (R209), from its members in list order. -/
def bitsOf : List Bool → Nat
  | [] => 0
  | b :: bs => (if b then 1 else 0) + 2 * bitsOf bs

/-- One bit of the CRC-16 of R208 (generator 1021h, most significant bit first). -/
def crc16Bit (c : Half) : Half :=
  if c.getLsbD 15 then (c <<< 1) ^^^ 0x1021#16 else c <<< 1

/-- One byte taken into the CRC-16. -/
def crc16Byte (c : Half) (b : Byte) : Half :=
  crc16Bit (crc16Bit (crc16Bit (crc16Bit (crc16Bit (crc16Bit (crc16Bit (crc16Bit
    (c ^^^ (b.setWidth 16 <<< 8)))))))))

/-- The CRC-16 of port and loop frames: from FFFFh, no final inversion (R208). -/
def crc16 (bytes : List Byte) : Half := bytes.foldl crc16Byte 0xFFFF#16

/-- The CRC-16 as a frame carries it, high byte first (R208). -/
def crc16Bytes (bytes : List Byte) : List Byte := byte2 (crc16 bytes).toNat

/-- One bit of the CRC-32 of R208 (generator 04C11DB7h, most significant bit first). -/
def crc32Bit (c : Word) : Word :=
  if c.getLsbD 31 then (c <<< 1) ^^^ 0x04C11DB7#32 else c <<< 1

/-- One byte taken into the CRC-32. -/
def crc32Byte (c : Word) (b : Byte) : Word :=
  crc32Bit (crc32Bit (crc32Bit (crc32Bit (crc32Bit (crc32Bit (crc32Bit (crc32Bit
    (c ^^^ (b.setWidth 32 <<< 24)))))))))

/-- The CRC-32 that guards a stored copy: from FFFFFFFFh, inverted at the end (R208). -/
def crc32 (bytes : List Byte) : Word := ~~~ (bytes.foldl crc32Byte 0xFFFFFFFF#32)

/-- A schedule window (R84), its day set as coded (bit 0 Monday). -/
structure Window where
  days : Byte
  start : Nat
  stop : Nat
  deriving DecidableEq, Repr

/-- The part record (R198); times in seconds, `fastLoop` for 153.6 kbit/s. -/
structure PartRec where
  releaseWindow : Nat
  heldOpenLimit : Nat
  pairingWindow : Nat
  sweepInterval : Nat
  fastLoop : Bool
  schedule : List Window
  deriving DecidableEq, Repr

/-- A zone record (R199, R146); travel limit in ms, lone-worker interval in minutes, the suppression times in seconds. -/
structure ZoneCfg where
  outerRail : Rail
  innerRail : Rail
  outerConfigured : Bool
  innerConfigured : Bool
  cap : Nat
  pinAfterHours : Bool
  travelLimit : Nat
  loneInterval : Nat
  coincidence : Nat
  preDischarge : Nat
  resume : Nat
  confirmTime : Nat
  soakTime : Nat
  deriving DecidableEq, Repr

/-- The control record (R199); `service` is true for IN_SERVICE. -/
structure ControlRec where
  service : Vector Bool 16
  isolation : Vector Bool 16
  lockdown : Vector Bool 16
  excluded : Vector Bool 16
  forceChord : Bool
  deriving DecidableEq, Repr

/-- The defaults of R198. -/
def PartRec.default : PartRec := ⟨8, 30, 30, 60, false, []⟩

/-- The defaults of R199 and R146. -/
def ZoneCfg.default : ZoneCfg := ⟨.a, .b, true, true, 12, true, 600, 20, 2, 30, 10, 10, 600⟩

/-- The defaults of R199. -/
def ControlRec.default : ControlRec :=
  ⟨Vector.replicate 16 false, Vector.replicate 16 false, Vector.replicate 16 false, Vector.replicate 16 false, false⟩

/-- A window's bytes in the order of the table of R84. -/
def Window.bytes (w : Window) : List Byte := [w.days] ++ byte2 w.start ++ byte2 w.stop

/-- The code of a rail: A 0, B 1 (R199, R209). -/
def Rail.code : Rail → Nat
  | .a => 0
  | .b => 1

/-- The part record's parameters in the order of the table of R198, without the schedule. -/
def PartRec.paramBytes (r : PartRec) : List Byte :=
  byte1 r.releaseWindow ++ byte2 r.heldOpenLimit ++ byte1 r.pairingWindow ++ byte2 r.sweepInterval ++ byteFlag r.fastLoop

/-- The part record's fields in the order of the table of R198. -/
def PartRec.bytes (r : PartRec) : List Byte := r.paramBytes ++ byteList Window.bytes r.schedule

/-- A zone record's fields in the order of the tables of R199 and R146. -/
def ZoneCfg.bytes (r : ZoneCfg) : List Byte :=
  byte1 (Rail.code r.outerRail) ++ byte1 (Rail.code r.innerRail) ++ byteFlag r.outerConfigured ++ byteFlag r.innerConfigured
    ++ byte1 r.cap ++ byteFlag r.pinAfterHours ++ byte2 r.travelLimit ++ byte1 r.loneInterval
    ++ byte1 r.coincidence ++ byte1 r.preDischarge ++ byte1 r.resume ++ byte1 r.confirmTime ++ byte2 r.soakTime

/-- The control record's fields in the order of the table of R199, zone by zone; service coded IN_SERVICE 0, OUT_OF_SERVICE 1 (R1). -/
def ControlRec.bytes (r : ControlRec) : List Byte :=
  (r.service.toList.flatMap fun b => byteFlag (!b)) ++ r.isolation.toList.flatMap byteFlag
    ++ r.lockdown.toList.flatMap byteFlag ++ r.excluded.toList.flatMap byteFlag ++ byteFlag r.forceChord

/-- One of the two copies of a record: its fields, write count and CRC-32.
The CRC is absent while a write has replaced the fields and the commit has not yet written it (R198). -/
structure Copy (α : Type) where
  fields : α
  count : Word
  crc : Option Word
  deriving DecidableEq, Repr

/-- The CRC-32 a copy must carry, over the fields followed by the write count (R198, R208). -/
def copyCrc {α : Type} (enc : α → List Byte) (c : Copy α) : Word := crc32 (enc c.fields ++ byte4 c.count.toNat)

/-- A copy is good when its CRC is correct (R198). -/
def copyGood {α : Type} (enc : α → List Byte) (c : Copy α) : Bool := c.crc == some (copyCrc enc c)

/-- A copy with its count and CRC written, as a commit leaves it (R198). -/
def sealedCopy {α : Type} (enc : α → List Byte) (fields : α) (count : Word) : Copy α :=
  { fields := fields, count := count, crc := some (copyCrc enc ⟨fields, count, none⟩) }

/-- A stored record: its two copies, which is current, the values in force, and the marks of start-up (R198, R204, R205). -/
structure Stored (α : Type) where
  first : Copy α
  second : Copy α
  useSecond : Bool
  value : α
  loaded : Bool
  defaulted : Bool
  deriving DecidableEq, Repr

/-- The copy in use. -/
def Stored.current {α : Type} (r : Stored α) : Copy α := if r.useSecond then r.second else r.first

/-- A write begins: the new fields go to the copy not in use, which is not good until the commit (R198). -/
def Stored.beginWrite {α : Type} (r : Stored α) (new : α) : Stored α :=
  if r.useSecond then { r with first := { r.first with fields := new, crc := none } }
  else { r with second := { r.second with fields := new, crc := none } }

/-- The commit: count and CRC are written last and the copy becomes good and current (R198, R202). -/
def Stored.commitWrite {α : Type} (enc : α → List Byte) (r : Stored α) (new : α) : Stored α :=
  if r.useSecond then
    { r with first := sealedCopy enc new (r.second.count + 1), useSecond := false, value := new }
  else { r with second := sealedCopy enc new (r.first.count + 1), useSecond := true, value := new }

/-- The record at the start of start-up: the copies stay, everything else is taken at the load (R205). -/
def Stored.unload {α : Type} (r : Stored α) (default : α) : Stored α :=
  { r with useSecond := false, value := default, loaded := false, defaulted := false }

/-- The load of R205: of two good copies the one whose count is one ahead, the first when neither is; the good copy when
one is good; the defaults, written back as a new current copy, when none is: the second copy, its count the first's plus one (DESIGN CHOICE,
log entry 50). -/
def Stored.load {α : Type} (enc : α → List Byte) (default : α) (r : Stored α) : Stored α :=
  match copyGood enc r.first, copyGood enc r.second with
  | true, true =>
    if r.second.count = r.first.count + 1 then
      { r with useSecond := true, value := r.second.fields, loaded := true }
    else { r with useSecond := false, value := r.first.fields, loaded := true }
  | true, false => { r with useSecond := false, value := r.first.fields, loaded := true }
  | false, true => { r with useSecond := true, value := r.second.fields, loaded := true }
  | false, false =>
    { (Stored.commitWrite enc { r with useSecond := false } default) with loaded := true, defaulted := true }

/-- A record as the part leaves manufacture: the first copy good with the defaults (DESIGN CHOICE, log entry 7). -/
def Stored.fresh {α : Type} (enc : α → List Byte) (default : α) : Stored α :=
  { first := sealedCopy enc default 0, second := ⟨default, 0, none⟩, useSecond := false, value := default,
    loaded := false, defaulted := false }

end Sys2Proof.Machine
end

