-- ==== Sys2Proof/Machine/State.lean ====
section
/-! DEFINITION. The state of the part: every piece of state the spec names (INVENTORY.md, State), as plain data, with the queue
of commands that wait and the work of the step in progress; and the state right after reset. -/
namespace Sys2Proof.Machine

/-! ### Roster (R1 to R5) -/

/-- The uncertain reasons (R1, R9). -/
inductive Reason where
  | restart
  | unbadgedExit
  | tailgateOverflow
  | stationLost
  | countMismatch
  deriving DecidableEq, Repr

/-- A set of uncertain reasons (R9). -/
structure ReasonSet where
  restart : Bool
  unbadgedExit : Bool
  tailgateOverflow : Bool
  stationLost : Bool
  countMismatch : Bool
  deriving DecidableEq, Repr

/-- The derived certainty of a zone (R10). -/
inductive Certainty where
  | empty
  | occupied
  | uncertain
  deriving DecidableEq, Repr

/-- The roles of a roster entry (R4). -/
inductive Role where
  | staff
  | escort
  | visitor
  | contractor
  | unidentified
  deriving DecidableEq, Repr

/-- The locations of a roster entry (R4). -/
inductive Location where
  | admitted
  | vestibule
  | inner
  deriving DecidableEq, Repr

/-- A roster entry (R4); `admittedAt` and `deadline` in seconds of uptime. -/
structure Entry where
  number : EntryNo
  zone : Zone
  badge : Option Badge
  role : Role
  location : Location
  admittedAt : Nat
  escort : Option Badge
  deadline : Option Nat
  checkIns : Nat
  duress : Bool
  unescorted : Bool
  lone : Bool
  group : Option Nat
  deriving DecidableEq, Repr

/-- The results of a sweep, and NONE before the first (R1). -/
inductive SweepOutcome where
  | none
  | pass
  | mismatch
  | degraded
  | noReply
  | abandoned
  deriving DecidableEq, Repr

/-- A pairing record (R96); the deadline in ms. -/
structure Pairing where
  badge : Badge
  door : DoorId
  deadline : Nat
  deriving DecidableEq, Repr

/-- A zone record (R1). Its certainty is computed (`certainty`); `inService` is the service field. -/
structure ZoneRec where
  inService : Bool
  reasons : ReasonSet
  headcount : Nat
  headcountValid : Bool
  generation : Half
  sweepMark : Bool
  late : ReasonSet
  pairing : Option Pairing
  deferrals : Nat
  lastResult : SweepOutcome
  deriving DecidableEq, Repr

/-! ### Doors and rails (R27, R28, R48, R49) -/

/-- The eight door states (R27). -/
inductive DoorState where
  | secured
  | queued
  | withdrawing
  | unlocked
  | opened
  | throwing
  | fault
  | unverified
  deriving DecidableEq, Repr

/-- The contact as last reported (R27). -/
inductive Contact where
  | opened
  | closed
  | unknown
  deriving DecidableEq, Repr

/-- The bolt as last reported (R27). -/
inductive Bolt where
  | thrown
  | withdrawn
  | unknown
  deriving DecidableEq, Repr

/-- The kinds of a release (R28). -/
inductive ReleaseKind where
  | passage
  | hold
  | egress
  deriving DecidableEq, Repr

/-- The origins of a release (R28). -/
inductive Origin where
  | reader
  | rex
  | cycle
  | master
  deriving DecidableEq, Repr

/-- The outcomes a release ends in (R28). -/
inductive ReleaseEnd where
  | complete
  | lapsed
  | waitExpired
  | railBusy
  | cancelled
  | abandoned
  deriving DecidableEq, Repr

/-- The wait reasons of a QUEUED release (R28, R30). -/
structure WaitSet where
  interlock : Bool
  settle : Bool
  sweep : Bool
  rail : Bool
  deriving DecidableEq, Repr

/-- A release record (R28), times in ms. `lapsed`: its window expired unopened (R36), so that it ends LAPSED. -/
structure Release where
  kind : ReleaseKind
  origin : Origin
  group : Option Nat
  window : Option Nat
  wait : WaitSet
  queuedAt : Nat
  opened : Bool
  cut : Bool
  lapsed : Bool
  deriving DecidableEq, Repr

/-- A door record (R27) with its settle, bolt and held-open timers (R30, R33, R38), each the ms at which it ends. -/
structure Door where
  state : DoorState
  release : Option Release
  relock : Bool
  contact : Contact
  bolt : Bolt
  travel : Nat
  degraded : Bool
  forced : Bool
  securedAt : Option Nat
  settleEnds : Option Nat
  boltTimer : Option Nat
  heldOpen : Option Nat
  deriving DecidableEq, Repr

/-- An actuator rail: its withdrawal history (oldest first), rail queue and outside list, each head first (R48, R49). -/
structure RailRec where
  history : List Nat
  queue : List DoorId
  outside : List DoorId
  deriving DecidableEq, Repr

/-- What the door unit holds. -/
structure DoorUnit where
  table : Vector Door 32
  underSweep : Vector Bool 16
  railA : RailRec
  railB : RailRec
  deriving DecidableEq, Repr

/-! ### Passage (R58, R62, R70) -/

/-- The PIN terminators (R54). -/
inductive Terminator where
  | none
  | enter
  | duress
  deriving DecidableEq, Repr

/-- A verdict query (R58); `digits` are the PIN digits as reported. -/
structure Query where
  id : Byte
  door : DoorId
  badge : Badge
  terminator : Terminator
  digits : List Nat
  raisedAt : Nat
  joinFlag : Bool
  deriving DecidableEq, Repr

/-- A cache entry (R62); `expiresAt` in seconds of uptime, `rights` bit z for zone z. -/
structure CacheEntry where
  badge : Badge
  role : Role
  rights : Half
  afterHours : Bool
  expiresAt : Nat
  deriving DecidableEq, Repr

/-- The role and duress mark kept beside a pairing record (R67). -/
structure HeldMember where
  role : Role
  duress : Bool
  deriving DecidableEq, Repr

/-- What the passage unit keeps for a zone (R70, R67). -/
structure ZonePassage where
  entryGroup : Option Nat
  vestibuleGroup : Option Nat
  exitGroup : Option Nat
  pendingInner : Bool
  pendingOuter : Bool
  tallyIn : Nat
  tallyOut : Nat
  held : Option HeldMember
  deriving DecidableEq, Repr

/-- What the passage unit holds. The cache stands least recently used first (R62); `lastGroup` is the group number last
chosen, 0 before the first (R70). -/
structure PassageUnit where
  queries : List Query
  nextQuery : Byte
  cache : List CacheEntry
  silent : Bool
  timeouts : Nat
  lastGroup : Nat
  zones : Vector ZonePassage 16
  deriving DecidableEq, Repr

/-! ### Hours (R82 to R98) -/

/-- The hours state (R86). -/
inductive HoursState where
  | dayHours
  | afterHours
  deriving DecidableEq, Repr

/-- What the hours unit holds. A zone's warning mark is set when `warnings` holds the uptime of the next re-sending (R90). -/
structure HoursUnit where
  clock : Nat
  clockValid : Bool
  state : HoursState
  schedule : List Window
  warnings : Vector (Option Nat) 16
  deriving DecidableEq, Repr

/-! ### Alarms (R99 to R118) -/

/-- The sixteen alarm kinds in the order of R100. -/
inductive AlarmKind where
  | panic
  | duress
  | releaseFault
  | loopCut
  | loneWorkerOverdue
  | doorForced
  | tailgate
  | unescortedVisitor
  | lineFault
  | doorHeld
  | doorFault
  | stationOffline
  | tamper
  | sweepMismatch
  | sweepOverdue
  | lockDegraded
  deriving DecidableEq, Repr

/-- A subject (R99). -/
inductive Subject where
  | none
  | badge (badge : Badge)
  | door (door : DoorId)
  | station (loop : LoopId) (slot : SlotId)
  | line (line : LineId)
  | loop (loop : LoopId)
  deriving DecidableEq, Repr

/-- An alarm record (R99); its priority is fixed by its kind (`AlarmKind.priority`); times in seconds of uptime. -/
structure AlarmRec where
  kind : AlarmKind
  zone : Option Zone
  subject : Subject
  present : Bool
  acknowledged : Bool
  firstRaised : Nat
  lastRaised : Nat
  raises : Nat
  deriving DecidableEq, Repr

/-- What the alarm unit holds; each zone's distress count is defined by R116 from the queue and the latch (`distress`). -/
structure AlarmUnit where
  queue : List AlarmRec
  generation : Half
  overflowMark : Bool
  overflowCount : Nat
  latch : Vector Bool 16
  deriving DecidableEq, Repr

/-! ### Suppression (R119 to R149) -/

/-- The nine suppression states (R119, R120). -/
inductive SuppState where
  | normal
  | alert
  | preDischarge
  | held
  | releasing
  | soak
  | releaseFault
  | vent
  | isolated
  deriving DecidableEq, Repr

/-- The hold reasons (R119, R126). -/
structure HoldSet where
  abort : Bool
  occupied : Bool
  uncertain : Bool
  distress : Bool
  panelHold : Bool
  deriving DecidableEq, Repr

/-- The release causes (R119). -/
inductive ReleaseCause where
  | automatic
  | forced
  deriving DecidableEq, Repr

/-- A zone's suppression record (R119), times in ms. -/
structure SuppRec where
  state : SuppState
  detectors : List Byte
  confirmed : Bool
  holds : HoldSet
  countdown : Nat
  cause : Option ReleaseCause
  deadline : Option Nat
  soakComplete : Bool
  pullSeen : Bool
  deriving DecidableEq, Repr

/-- The force window (R141): OPEN exactly when `closesAt` is present. -/
structure ForceWindow where
  closesAt : Option Nat
  suppressionHalf : Option Zone
  guardHalf : Option Zone
  deriving DecidableEq, Repr

/-- What the suppression unit holds. -/
structure SuppUnit where
  zones : Vector SuppRec 16
  window : ForceWindow
  deriving DecidableEq, Repr

/-! ### Sweep (R150) -/

/-- The kinds of a sweep (R150). -/
inductive SweepKind where
  | scheduled
  | sweepAll
  deriving DecidableEq, Repr

/-- A STATUS reply's contents as a sweep keeps them: contact, bolt, last travel and tallies (R154). -/
structure SweepReply where
  contactOpen : Bool
  boltWithdrawn : Bool
  travel : Nat
  tallyIn : Nat
  tallyOut : Nat
  deriving DecidableEq, Repr

/-- What a reconciliation found (R155). -/
inductive Reconciled where
  | baseline
  | missing (inbound outbound : Nat)
  | discontinuous
  deriving DecidableEq, Repr

/-- The sweep in progress (R150); a reply is absent while AWAITED. -/
structure SweepRec where
  zone : Zone
  kind : SweepKind
  outer : Option SweepReply
  inner : Option SweepReply
  reconciled : Option Reconciled
  deriving DecidableEq, Repr

/-- What the sweep unit holds (R150); `timer` is the ms of the next interval expiry. -/
structure SweepUnit where
  pointer : Zone
  timer : Option Nat
  inProgress : Option SweepRec
  allList : Option (List Zone)
  beamsIn : Vector Nat 16
  beamsOut : Vector Nat 16
  deriving DecidableEq, Repr

/-! ### Loops (R163 to R175) -/

/-- The states of a loop (R163). -/
inductive LoopState where
  | stopped
  | running
  | cut
  deriving DecidableEq, Repr

/-- The online states of a station slot (R165). -/
inductive OnlineState where
  | absent
  | online
  | offline
  deriving DecidableEq, Repr

/-- The tamper states (R165). -/
inductive Tamper where
  | on
  | off
  | unknown
  deriving DecidableEq, Repr

/-- A station slot (R165). -/
structure Slot where
  configured : Bool
  online : OnlineState
  missed : Nat
  tamper : Tamper
  tallies : Option (Nat × Nat)
  overflowQuery : Bool
  deriving DecidableEq, Repr

/-- The sides of a report or an INDICATE (R54, R211). -/
inductive Side where
  | corridor
  | vestibule
  | vault
  deriving DecidableEq, Repr

/-- The patterns of INDICATE (R170, R211). -/
inductive Pattern where
  | idle
  | granted
  | denied
  | wait
  | waitPair
  | waitExpired
  | warnCheckin
  | evacuate
  | lockdown
  deriving DecidableEq, Repr

/-- The commands a loop's queue holds (R169, R170). -/
inductive CmdBody where
  | withdraw
  | throwBolt
  | indicate (side : Side) (pattern : Pattern)
  | statusQuery
  deriving DecidableEq, Repr

/-- A queued command; `inFlight` while the frame of the exchange in progress carries it, cleared when it is replaced (R169). -/
structure LoopCmd where
  slot : SlotId
  body : CmdBody
  inFlight : Bool
  deriving DecidableEq, Repr

/-- The exchange in progress (R168): the station addressed, and the command sent, absent for a POLL. -/
structure Exchange where
  slot : SlotId
  body : Option CmdBody
  deriving DecidableEq, Repr

/-- A character of a frame the part sends on a loop: eight bits, and the ninth that marks an address (R211). -/
structure LoopChar where
  addressMark : Bool
  byte : Byte
  deriving DecidableEq, Repr

/-- One loop controller's state; `lastPolled` is the address last polled, 0 before the first (R168); `sent` is the frame of the
exchange in progress as the transmitter sends it (R211), empty without one. -/
structure Loop where
  state : LoopState
  slots : Vector Slot 16
  queue : List LoopCmd
  lastPolled : Nat
  exchange : Option Exchange
  sent : List LoopChar
  deriving DecidableEq, Repr

/-- Both loops, and the rate read when they started (R163). -/
structure LoopUnit where
  table : Vector Loop 2
  fastRate : Bool
  deriving DecidableEq, Repr

/-! ### Lines and outputs (R145, R176 to R181) -/

/-- A supervised input (R176); `supervised` is absent while PENDING; `since` is the ms of the candidate's last change. -/
structure Line where
  candidate : Level
  since : Nat
  supervised : Option Level
  armed : Bool
  qualified : Bool
  holdDeadline : Option Nat
  deriving DecidableEq, Repr

/-- The sounder patterns (R145). -/
inductive SounderPattern where
  | off
  | chime
  | warn
  | hold
  | discharge
  deriving DecidableEq, Repr

/-- A zone's three outputs (R145, R181); `since` is the ms at which the pattern began. -/
structure Output where
  release : Bool
  vent : Bool
  pattern : SounderPattern
  sounding : Bool
  since : Nat
  deriving DecidableEq, Repr

/-- What the line unit holds (R176 to R181). -/
structure LineUnit where
  table : Vector Line 66
  chordDeadline : Option Nat
  chordSpent : Bool
  outputs : Vector Output 16
  deriving DecidableEq, Repr

/-! ### Ports (R182 to R197) -/

/-- The status codes in the order of R186. -/
inductive Status where
  | ok
  | busy
  | badFrame
  | notPermitted
  | badArgument
  | wrongState
  | late
  | rosterFull
  | rosterConflict
  | doorsMoving
  | notSweepable
  | storeBusy
  deriving DecidableEq, Repr

/-- A reply as the reply slot holds it; `Reply.frame` lays it out (R208). -/
structure Reply where
  echo : Byte
  status : Status
  payload : List Byte
  deriving DecidableEq, Repr

/-- The fourteen notice kinds in the order of R189. -/
inductive NoticeKind where
  | verdictRequest
  | passageDecided
  | hoursChanged
  | zoneChanged
  | doorChanged
  | suppressionChanged
  | forceWindow
  | lineChanged
  | alarmRaised
  | alarmChanged
  | alarmDisplaced
  | sweepResult
  | stationChanged
  | resync
  deriving DecidableEq, Repr

/-- A notice (R188). -/
structure Notice where
  kind : NoticeKind
  uptime : Nat
  zone : Option Zone
  subject : Subject
  data : List Byte
  deriving DecidableEq, Repr

/-- The link of a port: idle, or a transaction in its answer phase, with the bytes the phase carries (none when it carries nothing) and
whether it is the collection of the waiting reply (R182, R184, R208). -/
inductive Link where
  | idle
  | answering (bytes : List Byte) (collection : Bool)
  deriving DecidableEq, Repr

/-- One port (R184, R188 to R191). -/
structure Port where
  slot : Option Request
  reply : Option Reply
  notices : List Notice
  resync : Bool
  drops : Nat
  link : Link
  deriving DecidableEq, Repr

/-- The three ports. -/
structure PortUnit where
  access : Port
  suppression : Port
  guard : Port
  deriving DecidableEq, Repr

/-! ### Store (R198 to R206) -/

/-- A store write in progress: the port whose slot holds the request, and when it began, ms (R202). -/
structure StoreWrite where
  port : PortId
  began : Nat
  deriving DecidableEq, Repr

/-- The configuration store with its marks (R198, R199, R202, R205). -/
structure Store where
  part : Stored PartRec
  zones : Vector (Stored ZoneCfg) 16
  control : Stored ControlRec
  write : Option StoreWrite
  defaultedMark : Bool
  deriving DecidableEq, Repr

/-! ### The step in progress (the model's own, log entry 5) -/

/-- A hand-on from one unit to another that the step in progress has still to take (R19, R51, R125). -/
inductive HandOn where
  /-- The door unit evaluates the QUEUED releases of a zone (R30, R31). -/
  | reevaluate (zone : Zone)
  /-- The suppression unit takes in a zone's changed certainty (R19, R126). -/
  | certainty (zone : Zone) (value : Certainty)
  /-- The zone has entered evacuation (R125, R43, R79). -/
  | evacuationEntered (zone : Zone)
  /-- The zone has left evacuation (R125, R31, R80). -/
  | evacuationLeft (zone : Zone)
  /-- A door with a release that has been OPEN entered THROWING (R51, R71). -/
  | threw (door : DoorId) (group : Option Nat)
  /-- A window lapse with the release's group (R36). -/
  | lapse (door : DoorId) (group : Option Nat)
  /-- A release ended; `lost` when its station was lost (R51, R71). -/
  | released (door : DoorId) (release : Release) (outcome : ReleaseEnd) (lost : Bool)
  /-- A door entered SECURED (R72, R77). -/
  | secured (door : DoorId)
  /-- The door unit abandoned the zone's sweep (R47). -/
  | sweepAbandoned (zone : Zone)
  deriving DecidableEq, Repr

/-- The causes of SUPPRESSION_CHANGED in the order of R147. -/
inductive SuppCause where
  | detect
  | clearDetect
  | confirmed
  | pull
  | holdChange
  | expiry
  | pressure
  | confirmTimeout
  | soakComplete
  | pressureUnexpected
  | vent
  | restore
  | cancel
  | isolate
  | deisolate
  | forced
  deriving DecidableEq, Repr

/-- The changes of ALARM_CHANGED that name a key, in the order of R107. -/
inductive AlarmChange where
  | ended
  | acknowledged
  | cleared
  | removed
  deriving DecidableEq, Repr

/-- The causes of a slot's STATION_CHANGED in the order of R175. -/
inductive SlotCause where
  | online
  | offline
  | silent
  | tamper
  | configured
  | absent
  deriving DecidableEq, Repr

/-- A notice due at the end of the step (R188): what the change itself tells; the rest of its data are the fields the step leaves. -/
inductive DueNotice where
  /-- DOOR_CHANGED, with the outcome of a release that ended (R51). -/
  | door (door : DoorId) (outcome : Option ReleaseEnd)
  /-- SUPPRESSION_CHANGED (R147). -/
  | suppression (zone : Zone) (cause : SuppCause)
  /-- ZONE_CHANGED (R12). -/
  | zone (zone : Zone)
  /-- ALARM_RAISED, with the record after the raising and the stored mark (R107). -/
  | alarmRaised (record : AlarmRec) (stored : Bool)
  /-- ALARM_CHANGED of a record, as the change left it (R107). -/
  | alarmChanged (record : AlarmRec) (change : AlarmChange)
  /-- ALARM_CHANGED of change LATCH_CLEARED (R107, R114). -/
  | latchCleared (zone : Zone)
  /-- ALARM_DISPLACED, with the record displaced and the alarm that displaced it (R105). -/
  | alarmDisplaced (record newcomer : AlarmRec)
  /-- SWEEP_RESULT of an end, or of a deferral when the result is absent, with the sweep made (R159). -/
  | sweep (zone : Zone) (result : Option SweepOutcome) (kind : SweepKind) (made : Option SweepRec)
  /-- STATION_CHANGED of a slot (R175). -/
  | slot (loop : LoopId) (slot : SlotId) (cause : SlotCause)
  /-- STATION_CHANGED of a loop: RESTORED or CUT, with the slots whose online state changed (R175). -/
  | loop (loop : LoopId) (restored : Bool) (changed : List SlotId)
  deriving DecidableEq, Repr

/-- The work of the step in progress: hand-ons not yet taken, the notices due at the step's end in the order of their changes, and
whether the alarm generation has been increased in this step (R107). -/
structure Work where
  handOns : List HandOn
  due : List DueNotice
  alarmTouched : Bool
  deriving DecidableEq, Repr

/-! ### The state -/

/-- The state of the part. `pending` is the queue of commands, front first; `now` is the time base in ms (00 section 5);
`started` says that start-up has ended (R206). -/
structure State where
  pending : List Instr
  now : Nat
  started : Bool
  store : Store
  zones : Vector ZoneRec 16
  pool : List Entry
  doors : DoorUnit
  passage : PassageUnit
  hours : HoursUnit
  alarms : AlarmUnit
  supp : SuppUnit
  sweep : SweepUnit
  loops : LoopUnit
  lines : LineUnit
  ports : PortUnit
  work : Work
  deriving DecidableEq, Repr

/-- The reasons the machine stops with a fault: none.
The spec names no fault that stops the part: a request is answered with a status (R186) and an event whose occasion has
passed finds nothing to do. -/
inductive Fault where
  deriving DecidableEq, Repr

/-- The reasons the machine refuses a command. -/
inductive Refusal where
  /-- Raised by `exec`'s arm of a command that has no meaning yet; safe. No arm raises it. -/
  | notModelled (mnemonic : String)
  deriving DecidableEq, Repr

/-! ### Reset (R26, R53, R81, R98, R118, R149, R162, R163, R176, R181, R197) -/

/-- The empty set of uncertain reasons. -/
def ReasonSet.empty : ReasonSet := ⟨false, false, false, false, false⟩

/-- The reset values of R26; OUT_OF_SERVICE until start-up ends (DESIGN CHOICE, log entry 10). -/
def ZoneRec.reset : ZoneRec :=
  { inService := false, reasons := { ReasonSet.empty with restart := true }, headcount := 0, headcountValid := false,
    generation := 0, sweepMark := false, late := ReasonSet.empty, pairing := none, deferrals := 0, lastResult := .none }

/-- The reset values of R53. -/
def Door.reset : Door :=
  { state := .unverified, release := none, relock := false, contact := .unknown, bolt := .unknown, travel := 0,
    degraded := false, forced := false, securedAt := none, settleEnds := none, boltTimer := none, heldOpen := none }

/-- The reset values of R53; the withdrawal histories are empty until the end of start-up fills them (DESIGN CHOICE, log entry 10). -/
def DoorUnit.reset : DoorUnit :=
  { table := Vector.replicate 32 Door.reset, underSweep := Vector.replicate 16 false, railA := ⟨[], [], []⟩,
    railB := ⟨[], [], []⟩ }

/-- The reset values of R81. -/
def PassageUnit.reset : PassageUnit :=
  { queries := [], nextQuery := 0, cache := [], silent := false, timeouts := 0, lastGroup := 0,
    zones := Vector.replicate 16
      { entryGroup := none, vestibuleGroup := none, exitGroup := none, pendingInner := false, pendingOuter := false,
        tallyIn := 0, tallyOut := 0, held := none } }

/-- The reset values of R98; no windows until the schedule is loaded (log entry 10). -/
def HoursUnit.reset : HoursUnit :=
  { clock := 0, clockValid := false, state := .afterHours, schedule := [], warnings := Vector.replicate 16 none }

/-- The reset values of R118. -/
def AlarmUnit.reset : AlarmUnit :=
  { queue := [], generation := 0, overflowMark := false, overflowCount := 0, latch := Vector.replicate 16 false }

/-- The reset values of R149; NORMAL until the isolation flags are taken at the end of start-up (R206; DESIGN CHOICE, log entry 7). -/
def SuppRec.reset : SuppRec :=
  { state := .normal, detectors := [], confirmed := false,
    holds := { abort := false, occupied := false, uncertain := true, distress := false, panelHold := false },
    countdown := 0, cause := none, deadline := none, soakComplete := false, pullSeen := false }

/-- The reset values of R149. -/
def SuppUnit.reset : SuppUnit :=
  { zones := Vector.replicate 16 SuppRec.reset, window := ⟨none, none, none⟩ }

/-- The reset values of R162. -/
def SweepUnit.reset : SweepUnit :=
  { pointer := 0, timer := none, inProgress := none, allList := none, beamsIn := Vector.replicate 16 0,
    beamsOut := Vector.replicate 16 0 }

/-- A slot before start-up has read its configured flag (log entry 10). -/
def Slot.reset : Slot :=
  { configured := false, online := .absent, missed := 0, tamper := .unknown, tallies := none, overflowQuery := false }

/-- The reset values of R163 to R165. -/
def LoopUnit.reset : LoopUnit :=
  { table := Vector.replicate 2
      { state := .stopped, slots := Vector.replicate 16 Slot.reset, queue := [], lastPolled := 0, exchange := none,
        sent := [] },
    fastRate := false }

/-- A line after a reset, presenting a level: PENDING, not qualified, unarmed, the filter begun (R176). -/
def Line.reset (level : Level) : Line :=
  { candidate := level, since := 0, supervised := none, armed := false, qualified := false, holdDeadline := none }

/-- An output after a reset: off (R181). -/
def Output.reset : Output := { release := false, vent := false, pattern := .off, sounding := false, since := 0 }

/-- The reset values of R176, R180 and R181 for lines presenting the levels given. -/
def LineUnit.reset (levels : Vector Level 66) : LineUnit :=
  { table := levels.map Line.reset, chordDeadline := none, chordSpent := false,
    outputs := Vector.replicate 16 Output.reset }

/-- The RESYNC notice of cause RESET (R192; causes numbered by its table). -/
def Notice.resyncReset : Notice := { kind := .resync, uptime := 0, zone := none, subject := .none, data := [0] }

/-- The reset values of R197. -/
def Port.reset : Port :=
  { slot := none, reply := none, notices := [Notice.resyncReset], resync := false, drops := 0, link := .idle }

/-- No work in progress. -/
def Work.idle : Work := { handOns := [], due := [], alarmTouched := false }

/-- The store as the part leaves manufacture, start-up begun (R199, log entry 7). -/
def Store.fresh : Store :=
  { part := Stored.fresh PartRec.bytes PartRec.default,
    zones := Vector.replicate 16 (Stored.fresh ZoneCfg.bytes ZoneCfg.default),
    control := Stored.fresh ControlRec.bytes ControlRec.default, write := none, defaultedMark := false }

/-- The machine right after a reset with this store and these levels at its lines: start-up begins (R205). -/
def State.afterReset (pending : List Instr) (store : Store) (levels : Vector Level 66) : State :=
  { pending := pending, now := 0, started := false, store := store, zones := Vector.replicate 16 ZoneRec.reset, pool := [],
    doors := DoorUnit.reset, passage := PassageUnit.reset, hours := HoursUnit.reset, alarms := AlarmUnit.reset,
    supp := SuppUnit.reset, sweep := SweepUnit.reset, loops := LoopUnit.reset, lines := LineUnit.reset levels,
    ports := ⟨Port.reset, Port.reset, Port.reset⟩, work := Work.idle }

/-- The machine right after power-on of a part new from manufacture, every line presenting NORMAL (log entries 7 and 9). -/
def State.reset : State := State.afterReset [] Store.fresh (Vector.replicate 66 .normal)

end Sys2Proof.Machine
end

