-- ==== Sys2Proof/Machine/Ops.lean ====
section
/-! DEFINITION. The named operations every unit uses: reading and writing the tables of State, the numbering of zones, doors and
stations, time, the codes of enumerated values (R209), placing notices (R189 to R191) and giving loop commands (R169). -/
namespace Sys2Proof.Machine

/-! ### Tables -/

/-- Reads a fixed table. -/
def nth {α : Type} {n : Nat} (v : Vector α n) (i : Fin n) : α := v[i.val]

/-- Writes one place of a fixed table. -/
def put {α : Type} {n : Nat} (v : Vector α n) (i : Fin n) (a : α) : Vector α n := v.set i.val a

/-- The sixteen zones in order. -/
def allZones : List Zone := [0, 1, 2, 3, 4, 5, 6, 7, 8, 9, 10, 11, 12, 13, 14, 15]

/-- The addresses of a loop, less one, in order. -/
def allSlots : List SlotId := [0, 1, 2, 3, 4, 5, 6, 7, 8, 9, 10, 11, 12, 13, 14, 15]

/-- The 32 doors in order. -/
def allDoors : List DoorId :=
  [0, 1, 2, 3, 4, 5, 6, 7, 8, 9, 10, 11, 12, 13, 14, 15, 16, 17, 18, 19, 20, 21, 22, 23, 24, 25, 26, 27, 28, 29, 30, 31]

/-- The two loops. -/
def allLoops : List LoopId := [0, 1]

/-- The 66 lines in order. -/
def allLines : List LineId := (List.range 66).filterMap fun n => if h : n < 66 then some ⟨n, h⟩ else none

/-- The 96 pool slots in order. -/
def allEntryNos : List EntryNo := (List.range 96).filterMap fun n => if h : n < 96 then some ⟨n, h⟩ else none

/-- A zone record. -/
def State.zone (s : State) (z : Zone) : ZoneRec := nth s.zones z

/-- Writes a zone record. -/
def State.setZone (s : State) (z : Zone) (r : ZoneRec) : State := { s with zones := put s.zones z r }

/-- A door record. -/
def State.door (s : State) (d : DoorId) : Door := nth s.doors.table d

/-- Writes a door record. -/
def State.setDoor (s : State) (d : DoorId) (r : Door) : State := { s with doors.table := put s.doors.table d r }

/-- A zone's mark of being under sweep (R47). -/
def State.underSweep (s : State) (z : Zone) : Bool := nth s.doors.underSweep z

/-- Sets or clears a zone's mark of being under sweep. -/
def State.setUnderSweep (s : State) (z : Zone) (b : Bool) : State :=
  { s with doors.underSweep := put s.doors.underSweep z b }

/-- A rail's record. -/
def State.rail (s : State) : Rail → RailRec
  | .a => s.doors.railA
  | .b => s.doors.railB

/-- Writes a rail's record. -/
def State.setRail (s : State) (r : Rail) (x : RailRec) : State :=
  match r with
  | .a => { s with doors.railA := x }
  | .b => { s with doors.railB := x }

/-- What the passage unit keeps for a zone. -/
def State.zonePassage (s : State) (z : Zone) : ZonePassage := nth s.passage.zones z

/-- Writes what the passage unit keeps for a zone. -/
def State.setZonePassage (s : State) (z : Zone) (x : ZonePassage) : State :=
  { s with passage.zones := put s.passage.zones z x }

/-- A zone's suppression record. -/
def State.suppRec (s : State) (z : Zone) : SuppRec := nth s.supp.zones z

/-- Writes a zone's suppression record. -/
def State.setSuppRec (s : State) (z : Zone) (x : SuppRec) : State := { s with supp.zones := put s.supp.zones z x }

/-- A loop. -/
def State.loop (s : State) (l : LoopId) : Loop := nth s.loops.table l

/-- Writes a loop. -/
def State.setLoop (s : State) (l : LoopId) (x : Loop) : State := { s with loops.table := put s.loops.table l x }

/-- A station slot. -/
def State.slot (s : State) (l : LoopId) (a : SlotId) : Slot := nth (s.loop l).slots a

/-- Writes a station slot. -/
def State.setSlot (s : State) (l : LoopId) (a : SlotId) (x : Slot) : State :=
  s.setLoop l { s.loop l with slots := put (s.loop l).slots a x }

/-- A supervised input. -/
def State.line (s : State) (n : LineId) : Line := nth s.lines.table n

/-- Writes a supervised input. -/
def State.setLine (s : State) (n : LineId) (x : Line) : State := { s with lines.table := put s.lines.table n x }

/-- A zone's outputs. -/
def State.output (s : State) (z : Zone) : Output := nth s.lines.outputs z

/-- Writes a zone's outputs. -/
def State.setOutput (s : State) (z : Zone) (x : Output) : State := { s with lines.outputs := put s.lines.outputs z x }

/-- A zone's overflow distress latch (R117). -/
def State.latch (s : State) (z : Zone) : Bool := nth s.alarms.latch z

/-- Sets or clears a zone's overflow distress latch. -/
def State.setLatch (s : State) (z : Zone) (b : Bool) : State := { s with alarms.latch := put s.alarms.latch z b }

/-- A zone's warning mark: the uptime of the next re-sending while it is set (R90). -/
def State.warning (s : State) (z : Zone) : Option Nat := nth s.hours.warnings z

/-- Writes a zone's warning mark. -/
def State.setWarning (s : State) (z : Zone) (w : Option Nat) : State :=
  { s with hours.warnings := put s.hours.warnings z w }

/-- A port. -/
def State.port (s : State) : PortId → Port
  | .access => s.ports.access
  | .suppression => s.ports.suppression
  | .guard => s.ports.guard

/-- Writes a port. -/
def State.setPort (s : State) (p : PortId) (x : Port) : State :=
  match p with
  | .access => { s with ports.access := x }
  | .suppression => { s with ports.suppression := x }
  | .guard => { s with ports.guard := x }

/-- A zone record of the store. -/
def State.storedZone (s : State) (z : Zone) : Stored ZoneCfg := nth s.store.zones z

/-- A zone's stored fields in force (R199). -/
def State.cfg (s : State) (z : Zone) : ZoneCfg := (s.storedZone z).value

/-- The part record in force (R198). -/
def State.partCfg (s : State) : PartRec := s.store.part.value

/-- The control record in force (R199). -/
def State.control (s : State) : ControlRec := s.store.control.value

/-- A zone's lockdown flag (R45). -/
def State.lockdownFlag (s : State) (z : Zone) : Bool := nth s.control.lockdown z

/-- A zone's sweep exclusion flag (R161). -/
def State.excludedFlag (s : State) (z : Zone) : Bool := nth s.control.excluded z

/-- A zone's isolation flag (R138). -/
def State.isolationFlag (s : State) (z : Zone) : Bool := nth s.control.isolation z

/-! ### Numbering (00 section 5, R163, R176) -/

/-- The outer door of a zone. -/
def outerDoor (z : Zone) : DoorId := ⟨2 * z.val, by omega⟩

/-- The inner door of a zone. -/
def innerDoor (z : Zone) : DoorId := ⟨2 * z.val + 1, by omega⟩

/-- The zone of a door. -/
def zoneOf (d : DoorId) : Zone := ⟨d.val / 2, by omega⟩

/-- Whether a door is its zone's outer door. -/
def isOuter (d : DoorId) : Bool := d.val % 2 == 0

/-- The station configured flag of a door in its zone's record (R199). -/
def ZoneCfg.stationConfigured (c : ZoneCfg) (d : DoorId) : Bool := if isOuter d then c.outerConfigured else c.innerConfigured

/-- The other door of the door's zone. -/
def otherDoor (d : DoorId) : DoorId := if isOuter d then innerDoor (zoneOf d) else outerDoor (zoneOf d)

/-- The loop that serves a zone: loop 0 Z0 to Z7, loop 1 Z8 to Z15. -/
def loopOf (z : Zone) : LoopId := ⟨z.val / 8, by omega⟩

/-- A door's station, by its loop address less one: 2(z mod 8) for the outer, one more for the inner station. -/
def slotOf (d : DoorId) : SlotId := ⟨d.val % 16, by omega⟩

/-- The door a station serves (R163). -/
def doorAt (l : LoopId) (a : SlotId) : DoorId := ⟨16 * l.val + a.val, by omega⟩

/-- The zone a station serves (R100, R163). -/
def zoneAt (l : LoopId) (a : SlotId) : Zone := zoneOf (doorAt l a)

/-- A zone named by a byte, absent above Z15. -/
def zoneArg (b : Byte) : Option Zone := if h : b.toNat < 16 then some ⟨b.toNat, h⟩ else none

/-- A door named by a byte, absent above 31. -/
def doorArg (b : Byte) : Option DoorId := if h : b.toNat < 32 then some ⟨b.toNat, h⟩ else none

/-- A badge number: 0 and FFFFFFFFh are not badge numbers (00 section 5). -/
def badgeOk (b : Badge) : Bool := b != 0 && b != 0xFFFFFFFF#32

/-- The kinds of supervised inputs (R176). -/
inductive LineKind where
  | pull
  | abort
  | panic
  | pressure
  | keyA
  | keyB
  deriving DecidableEq, Repr

/-- The kind of an input by its number (R176). -/
def lineKind (n : LineId) : LineKind :=
  if n.val = 64 then .keyA
  else if n.val = 65 then .keyB
  else match n.val % 4 with
    | 0 => .pull
    | 1 => .abort
    | 2 => .panic
    | _ => .pressure

/-- The zone of an input, absent for the panel keys (R176). -/
def lineZone (n : LineId) : Option Zone := if h : n.val < 64 then some ⟨n.val / 4, by omega⟩ else none

/-- A zone's PULL input. -/
def pullLine (z : Zone) : LineId := ⟨4 * z.val, by omega⟩

/-- A zone's ABORT input. -/
def abortLine (z : Zone) : LineId := ⟨4 * z.val + 1, by omega⟩

/-- A zone's PRESSURE input. -/
def pressureLine (z : Zone) : LineId := ⟨4 * z.val + 3, by omega⟩

/-- The two key lines. -/
def keyALine : LineId := 64

/-- The two key lines. -/
def keyBLine : LineId := 65

/-! ### Time (00 section 5) -/

/-- Uptime in seconds, 32 bits wide. -/
def State.uptime (s : State) : Nat := s.now / 1000 % 4294967296

/-- Whether a deadline in ms has been reached. -/
def State.reached (s : State) (deadline : Option Nat) : Bool :=
  match deadline with
  | some t => t ≤ s.now
  | none => false

/-- The ms that remain to a deadline. -/
def State.remaining (s : State) (deadline : Option Nat) : Option Nat := deadline.map (· - s.now)

/-! ### Sets -/

/-- Adds a reason to a set (R9). -/
def ReasonSet.insert (r : ReasonSet) : Reason → ReasonSet
  | .restart => { r with restart := true }
  | .unbadgedExit => { r with unbadgedExit := true }
  | .tailgateOverflow => { r with tailgateOverflow := true }
  | .stationLost => { r with stationLost := true }
  | .countMismatch => { r with countMismatch := true }

/-- A set's members in the order of R1. -/
def ReasonSet.members (r : ReasonSet) : List Bool :=
  [r.restart, r.unbadgedExit, r.tailgateOverflow, r.stationLost, r.countMismatch]

/-- Whether a hold reason is present (R126). -/
def HoldSet.any (h : HoldSet) : Bool := h.abort || h.occupied || h.uncertain || h.distress || h.panelHold

/-- A set's members in the order of R119. -/
def HoldSet.members (h : HoldSet) : List Bool := [h.abort, h.occupied, h.uncertain, h.distress, h.panelHold]

/-- No wait reason. -/
def WaitSet.empty : WaitSet := ⟨false, false, false, false⟩

/-- Whether a reason other than RAIL is held (R30). -/
def WaitSet.other (w : WaitSet) : Bool := w.interlock || w.settle || w.sweep

/-- A set's members in the order of R28. -/
def WaitSet.members (w : WaitSet) : List Bool := [w.interlock, w.settle, w.sweep, w.rail]

/-! ### Codes of enumerated values, numbered from 0 as the owning rule lists them (R209, R210, R211) -/

/-- R210. -/
def Certainty.code : Certainty → Nat
  | .empty => 0
  | .occupied => 1
  | .uncertain => 2

/-- R210. -/
def Role.code : Role → Nat
  | .staff => 0
  | .escort => 1
  | .visitor => 2
  | .contractor => 3
  | .unidentified => 4

/-- R210. -/
def Location.code : Location → Nat
  | .admitted => 0
  | .vestibule => 1
  | .inner => 2

/-- R1. -/
def serviceCode (inService : Bool) : Nat := if inService then 0 else 1

/-- R1 (the same numbers in SWEEP_RESULT, log entry 11). -/
def SweepOutcome.code : SweepOutcome → Nat
  | .none => 0
  | .pass => 1
  | .mismatch => 2
  | .degraded => 3
  | .noReply => 4
  | .abandoned => 5

/-- R27. -/
def DoorState.code : DoorState → Nat
  | .secured => 0
  | .queued => 1
  | .withdrawing => 2
  | .unlocked => 3
  | .opened => 4
  | .throwing => 5
  | .fault => 6
  | .unverified => 7

/-- R27. -/
def Contact.code : Contact → Nat
  | .opened => 0
  | .closed => 1
  | .unknown => 2

/-- R27. -/
def Bolt.code : Bolt → Nat
  | .thrown => 0
  | .withdrawn => 1
  | .unknown => 2

/-- R28. -/
def ReleaseKind.code : ReleaseKind → Nat
  | .passage => 0
  | .hold => 1
  | .egress => 2

/-- R28. -/
def Origin.code : Origin → Nat
  | .reader => 0
  | .rex => 1
  | .cycle => 2
  | .master => 3

/-- R28. -/
def ReleaseEnd.code : ReleaseEnd → Nat
  | .complete => 0
  | .lapsed => 1
  | .waitExpired => 2
  | .railBusy => 3
  | .cancelled => 4
  | .abandoned => 5

/-- R54, R211. -/
def Terminator.code : Terminator → Nat
  | .none => 0
  | .enter => 1
  | .duress => 2

/-- R86. -/
def HoursState.code : HoursState → Nat
  | .dayHours => 0
  | .afterHours => 1

/-- R100. -/
def AlarmKind.code : AlarmKind → Nat
  | .panic => 0
  | .duress => 1
  | .releaseFault => 2
  | .loopCut => 3
  | .loneWorkerOverdue => 4
  | .doorForced => 5
  | .tailgate => 6
  | .unescortedVisitor => 7
  | .lineFault => 8
  | .doorHeld => 9
  | .doorFault => 10
  | .stationOffline => 11
  | .tamper => 12
  | .sweepMismatch => 13
  | .sweepOverdue => 14
  | .lockDegraded => 15

/-- R119. -/
def SuppState.code : SuppState → Nat
  | .normal => 0
  | .alert => 1
  | .preDischarge => 2
  | .held => 3
  | .releasing => 4
  | .soak => 5
  | .releaseFault => 6
  | .vent => 7
  | .isolated => 8

/-- R119. -/
def ReleaseCause.code : ReleaseCause → Nat
  | .automatic => 0
  | .forced => 1

/-- R147. -/
def SuppCause.code : SuppCause → Nat
  | .detect => 0
  | .clearDetect => 1
  | .confirmed => 2
  | .pull => 3
  | .holdChange => 4
  | .expiry => 5
  | .pressure => 6
  | .confirmTimeout => 7
  | .soakComplete => 8
  | .pressureUnexpected => 9
  | .vent => 10
  | .restore => 11
  | .cancel => 12
  | .isolate => 13
  | .deisolate => 14
  | .forced => 15

/-- R150. -/
def SweepKind.code : SweepKind → Nat
  | .scheduled => 0
  | .sweepAll => 1

/-- R163. -/
def LoopState.code : LoopState → Nat
  | .stopped => 0
  | .running => 1
  | .cut => 2

/-- R165. -/
def OnlineState.code : OnlineState → Nat
  | .absent => 0
  | .online => 1
  | .offline => 2

/-- R165. -/
def Tamper.code : Tamper → Nat
  | .on => 0
  | .off => 1
  | .unknown => 2

/-- R211. -/
def Side.code : Side → Nat
  | .corridor => 0
  | .vestibule => 1
  | .vault => 2

/-- R211. -/
def Pattern.code : Pattern → Nat
  | .idle => 0
  | .granted => 1
  | .denied => 2
  | .wait => 3
  | .waitPair => 4
  | .waitExpired => 5
  | .warnCheckin => 6
  | .evacuate => 7
  | .lockdown => 8

/-- R176; PENDING after the four levels. -/
def supervisedCode : Option Level → Nat
  | some .normal => 0
  | some .active => 1
  | some .openCircuit => 2
  | some .short => 3
  | none => 4

/-- R178. -/
def LineKind.code : LineKind → Nat
  | .pull => 0
  | .abort => 1
  | .panic => 2
  | .pressure => 3
  | .keyA => 4
  | .keyB => 5

/-- R145. -/
def SounderPattern.code : SounderPattern → Nat
  | .off => 0
  | .chime => 1
  | .warn => 2
  | .hold => 3
  | .discharge => 4

/-- R186, R208. -/
def Status.code : Status → Nat
  | .ok => 0
  | .busy => 1
  | .badFrame => 2
  | .notPermitted => 3
  | .badArgument => 4
  | .wrongState => 5
  | .late => 6
  | .rosterFull => 7
  | .rosterConflict => 8
  | .doorsMoving => 9
  | .notSweepable => 10
  | .storeBusy => 11

/-- R189, R210. -/
def NoticeKind.code : NoticeKind → Nat
  | .verdictRequest => 0
  | .passageDecided => 1
  | .hoursChanged => 2
  | .zoneChanged => 3
  | .doorChanged => 4
  | .suppressionChanged => 5
  | .forceWindow => 6
  | .lineChanged => 7
  | .alarmRaised => 8
  | .alarmChanged => 9
  | .alarmDisplaced => 10
  | .sweepResult => 11
  | .stationChanged => 12
  | .resync => 13

/-- The form of a subject (R210). -/
def Subject.form : Subject → Nat
  | .none => 0
  | .badge _ => 1
  | .door _ => 2
  | .station _ _ => 3
  | .line _ => 4
  | .loop _ => 5

/-- The value of a subject (R210): for a station the loop in the top bit and the address less one in the low four. -/
def Subject.value : Subject → List Byte
  | .none => []
  | .badge b => byte4 b.toNat
  | .door d => byte1 d.val
  | .station l a => byte1 (128 * l.val + a.val)
  | .line n => byte1 n.val
  | .loop l => byte1 l.val

/-- A subject as a field: form, then value (R209). -/
def Subject.bytes (x : Subject) : List Byte := byte1 x.form ++ x.value

/-- A zone as a field: FFh when absent (R209). -/
def zoneByte : Option Zone → List Byte
  | some z => byte1 z.val
  | none => [0xFF#8]

/-- An alarm key as a field (R209). -/
def keyBytes (kind : AlarmKind) (zone : Option Zone) (subject : Subject) : List Byte :=
  byte1 kind.code ++ zoneByte zone ++ subject.bytes

/-! ### Notices (R188 to R192) -/

/-- A notice reaches a port's queue, or is dropped there when it is full (R190, R191). -/
def Port.place (x : Port) (n : Notice) : Port :=
  if x.notices.length < Config.noticeCap then { x with notices := x.notices ++ [n] }
  else { x with resync := true, drops := min (x.drops + 1) Config.dropMax }

/-- Places a notice in one port's queue. -/
def State.placeNotice (s : State) (p : PortId) (n : Notice) : State := s.setPort p ((s.port p).place n)

/-- The ports a notice kind is routed to (R189); ALARM_RAISED goes to the suppression port as well for two alarm kinds. -/
def NoticeKind.route : NoticeKind → List PortId
  | .verdictRequest | .passageDecided | .hoursChanged => [.access]
  | .zoneChanged => [.access, .suppression, .guard]
  | .doorChanged => [.access, .guard]
  | .suppressionChanged | .forceWindow => [.suppression, .guard]
  | .lineChanged => [.suppression]
  | .alarmRaised | .alarmChanged | .alarmDisplaced | .sweepResult | .stationChanged => [.guard]
  | .resync => [.access, .suppression, .guard]

/-- Gives the port unit a notice for the ports named, in order. -/
def State.notifyPorts (s : State) (ports : List PortId) (n : Notice) : State :=
  ports.foldl (fun t p => t.placeNotice p n) s

/-- Gives the port unit a notice of a kind with the uptime of now (R188, R189). -/
def State.notify (s : State) (kind : NoticeKind) (zone : Option Zone) (subject : Subject) (data : List Byte) : State :=
  s.notifyPorts kind.route { kind := kind, uptime := s.uptime, zone := zone, subject := subject, data := data }

/-- A notice is due at the end of the step, after those due already (R188). -/
def State.dueNotice (s : State) (n : DueNotice) : State := { s with work.due := s.work.due ++ [n] }

/-! ### Hand-ons (log entry 5) -/

/-- A hand-on to another unit, taken after those already waiting. -/
def State.handOn (s : State) (h : HandOn) : State := { s with work.handOns := s.work.handOns ++ [h] }

/-- The door unit's own re-evaluation, taken before what it hands to other units (R51: at the end of the event). -/
def State.handOnFirst (s : State) (h : HandOn) : State := { s with work.handOns := h :: s.work.handOns }

/-! ### Loop commands (R169) -/

/-- Whether two commands are of the same class for the same station or reader (R169). -/
def CmdBody.sameClass : CmdBody → CmdBody → Bool
  | .withdraw, .withdraw | .withdraw, .throwBolt | .throwBolt, .withdraw | .throwBolt, .throwBolt => true
  | .indicate x _, .indicate y _ => x == y
  | .statusQuery, .statusQuery => true
  | _, _ => false

/-- A command joins a queue: it replaces one of its class in its place, a second STATUS_QUERY is not queued, and any other
joins at the tail (R169). -/
def enqueueCmd (q : List LoopCmd) (slot : SlotId) (body : CmdBody) : List LoopCmd :=
  if q.any fun c => c.slot == slot && c.body.sameClass body then
    if body = .statusQuery then q
    else q.map fun c => if c.slot == slot && c.body.sameClass body then ⟨slot, body, false⟩ else c
  else q ++ [⟨slot, body, false⟩]

/-- A unit gives a command for a station: discarded on a loop that is not RUNNING or for an ABSENT slot (R164, R165, R169). -/
def State.giveCmd (s : State) (l : LoopId) (a : SlotId) (body : CmdBody) : State :=
  if (s.loop l).state = .running ∧ (s.slot l a).online ≠ .absent then
    s.setLoop l { s.loop l with queue := enqueueCmd (s.loop l).queue a body }
  else s

/-- A command for a door's station. -/
def State.giveDoorCmd (s : State) (d : DoorId) (body : CmdBody) : State :=
  s.giveCmd (loopOf (zoneOf d)) (slotOf d) body

/-- The evacuation set (00 section 5, R120). -/
def SuppState.evacuation : SuppState → Bool
  | .preDischarge | .held | .releasing | .soak | .releaseFault => true
  | .normal | .alert | .vent | .isolated => false

/-- Whether a zone is in evacuation (R125). -/
def State.inEvacuation (s : State) (z : Zone) : Bool := (s.suppRec z).state.evacuation

/-- The station that carries a zone's reader: the corridor reader stands at the outer station, the other two at the inner (R54). -/
def readerDoor (z : Zone) : Side → DoorId
  | .corridor => outerDoor z
  | .vestibule | .vault => innerDoor z

/-- Gives INDICATE for a reader; in evacuation no pattern but EVACUATE is sent (R56, R90). -/
def State.indicate (s : State) (z : Zone) (side : Side) (pattern : Pattern) : State :=
  if s.inEvacuation z && pattern != .evacuate then s
  else s.giveDoorCmd (readerDoor z side) (.indicate side pattern)

end Sys2Proof.Machine
end

