-- ==== Sys2Proof/Machine/Flags.lean ====
section
/-! DEFINITION. The derived flags of the part: a zone's roster and certainty (R3, R10), its distress count (R116), its abort input
(R179), its door policy (R43), the moving set, the numbers in use (R70), READY and ATTN (R184, R190). -/
namespace Sys2Proof.Machine

/-! ### Roster -/

/-- A zone's roster in creation order (R3). -/
def State.roster (s : State) (z : Zone) : List Entry := s.pool.filter fun e => e.zone == z

/-- Whether an entry is badged (R4). -/
def Entry.badged (e : Entry) : Bool := e.badge.isSome

/-- The number of a zone's badged entries (R19). -/
def State.badgedCount (s : State) (z : Zone) : Nat := ((s.roster z).filter Entry.badged).length

/-- The number of a zone's anonymous entries (R19). -/
def State.anonymousCount (s : State) (z : Zone) : Nat := ((s.roster z).filter fun e => !e.badged).length

/-- The number of a zone's entries at a location. -/
def State.countAt (s : State) (z : Zone) (loc : Location) : Nat :=
  ((s.roster z).filter fun e => e.location == loc).length

/-- The number of a zone's badged entries at a location. -/
def State.badgedAt (s : State) (z : Zone) (loc : Location) : Nat :=
  ((s.roster z).filter fun e => e.badged && e.location == loc).length

/-- The certainty of a zone (R10). -/
def State.certainty (s : State) (z : Zone) : Certainty :=
  if (s.zone z).reasons ≠ ReasonSet.empty ∨ (s.zone z).headcountValid = false then .uncertain
  else if s.roster z = [] then .empty
  else .occupied

/-- The number of free pool slots (R3). -/
def State.freeSlots (s : State) : Nat := 96 - s.pool.length

/-- The lowest-numbered free pool slot (R3). -/
def lowestFree (pool : List Entry) : Option EntryNo :=
  allEntryNos.find? fun n => pool.all fun e => e.number != n

/-- The entry that carries a badge, in whichever zone (R3). -/
def State.entryOfBadge (s : State) (b : Badge) : Option Entry := s.pool.find? fun e => e.badge == some b

/-- The entry a pool slot holds (R3). -/
def State.entryAt (s : State) (n : EntryNo) : Option Entry := s.pool.find? fun e => e.number == n

/-! ### Alarms -/

/-- The priority of each kind (R100). -/
def AlarmKind.priority : AlarmKind → Nat
  | .panic | .duress | .releaseFault | .loopCut => 1
  | .loneWorkerOverdue | .doorForced | .tailgate | .unescortedVisitor | .lineFault => 2
  | .doorHeld | .doorFault | .stationOffline | .tamper | .sweepMismatch => 3
  | .sweepOverdue | .lockDegraded => 4

/-- The distress kinds (R100). -/
def AlarmKind.distress : AlarmKind → Bool
  | .panic | .duress | .loneWorkerOverdue => true
  | _ => false

/-- A PRESENT distress record of a zone (R116). -/
def AlarmRec.countsFor (r : AlarmRec) (z : Zone) : Bool := r.kind.distress && r.present && r.zone == some z

/-- A zone's distress count (R116). -/
def State.distress (s : State) (z : Zone) : Nat :=
  (s.alarms.queue.filter fun r => r.countsFor z).length + if s.latch z then 1 else 0

/-- The key of a record (R101). -/
def AlarmRec.hasKey (r : AlarmRec) (kind : AlarmKind) (zone : Option Zone) (subject : Subject) : Bool :=
  r.kind == kind && r.zone == zone && r.subject == subject

/-- Whether a record of a key is PRESENT. -/
def State.alarmPresent (s : State) (kind : AlarmKind) (zone : Option Zone) (subject : Subject) : Bool :=
  s.alarms.queue.any fun r => r.hasKey kind zone subject && r.present

/-! ### Lines -/

/-- Whether a supervised state is a fault (R177). -/
def lineFaulted : Option Level → Bool
  | some .openCircuit | some .short => true
  | _ => false

/-- Whether a zone's abort input is active: qualified ACTIVE or in a fault (R126, R179). -/
def State.abortActive (s : State) (z : Zone) : Bool :=
  (s.line (abortLine z)).qualified || lineFaulted (s.line (abortLine z)).supervised

/-! ### Doors -/

/-- The moving set (R27). -/
def DoorState.moving : DoorState → Bool
  | .withdrawing | .unlocked | .opened | .throwing => true
  | .secured | .queued | .fault | .unverified => false

/-- Whether both doors of a zone are in the moving set (R135, R137). -/
def State.bothMoving (s : State) (z : Zone) : Bool :=
  (s.door (outerDoor z)).state.moving && (s.door (innerDoor z)).state.moving

/-- A zone's door policy is EGRESS_ONLY (R43). -/
def State.egressOnly (s : State) (z : Zone) : Bool :=
  !(s.zone z).inService || s.lockdownFlag z || s.inEvacuation z

/-- The rail a door draws from (R48). -/
def State.railOf (s : State) (d : DoorId) : Rail :=
  if isOuter d then (s.cfg (zoneOf d)).outerRail else (s.cfg (zoneOf d)).innerRail

/-- The history entries of a rail that lie within the last 2.0 s (R48). -/
def State.recentStarts (s : State) (r : Rail) : List Nat :=
  (s.rail r).history.filter fun t => s.now < t + Config.railWindowMs

/-- Whether a rail has room (R48). -/
def State.railHasRoom (s : State) (r : Rail) : Bool := (s.recentStarts r).length < Config.railBudget

/-- The release of a door is of the kind and has not been opened. -/
def Door.unopened (x : Door) (kind : ReleaseKind) : Bool :=
  match x.release with
  | some r => r.kind == kind && !r.opened
  | none => false

/-- The group a door's release carries. -/
def Door.group (x : Door) : Option Nat := x.release.bind (·.group)

/-- A group number is in use while any entry or any attached release carries it (R70). -/
def State.groupInUse (s : State) (g : Nat) : Bool :=
  s.pool.any (fun e => e.group == some g) || allDoors.any fun d => (s.door d).group == some g

/-! ### Stations -/

/-- Whether a door's station is ONLINE (R165). -/
def State.stationOnline (s : State) (d : DoorId) : Bool := (s.slot (loopOf (zoneOf d)) (slotOf d)).online == .online

/-! ### Ports -/

/-- READY: the request slot and the reply slot are empty and start-up has ended (R184). -/
def State.ready (s : State) (p : PortId) : Bool := s.started && (s.port p).slot.isNone && (s.port p).reply.isNone

/-- ATTN: the notice queue holds a notice (R190). -/
def State.attn (s : State) (p : PortId) : Bool := !(s.port p).notices.isEmpty

end Sys2Proof.Machine
end

