-- ==== Sys2Proof/Machine/Notices.lean ====
section
/-! DEFINITION. The notices due at the end of a step (R188): what each carries of the change that asked for it and of the state the step
left, its route (R189), and their placing in order. -/
namespace Sys2Proof.Machine

/-! ### Doors and suppression -/

/-- The data of DOOR_CHANGED (R51). The kind, origin, group and wait reasons of the door's release stand behind one presence byte, the group
behind one of its own within (DESIGN CHOICE, log entry 60). -/
def doorNoticeData (s : State) (d : DoorId) (outcome : Option ReleaseEnd) : List Byte :=
  let x := s.door d
  byte1 x.state.code
    ++ byteOption (fun (r : Release) => byte1 r.kind.code ++ byte1 r.origin.code ++ byteOption byte1 r.group
        ++ byte1 (bitsOf r.wait.members)) x.release
    ++ byteOption (fun o => byte1 o.code) outcome ++ byte1 x.contact.code ++ byte1 x.bolt.code ++ byteFlag x.forced
    ++ byteFlag x.degraded ++ byteFlag (s.egressOnly (zoneOf d))

/-- The data of SUPPRESSION_CHANGED (R147); the ms remaining of a stage deadline take four bytes (DESIGN CHOICE, log entry 51). -/
def suppNoticeData (s : State) (z : Zone) (cause : SuppCause) : List Byte :=
  let r := s.suppRec z
  byte1 cause.code ++ byte1 r.state.code ++ byteList (fun d => [d]) r.detectors ++ byteFlag r.confirmed
    ++ byte1 (bitsOf r.holds.members) ++ byte4 r.countdown ++ byteOption (fun c => byte1 c.code) r.cause
    ++ byteOption byte4 (s.remaining r.deadline) ++ byteFlag r.soakComplete ++ byteFlag r.pullSeen

/-! ### Roster -/

/-- The data of ZONE_CHANGED (R12). -/
def zoneChangedData (s : State) (z : Zone) : List Byte :=
  byte2 (s.zone z).generation.toNat ++ byte1 (s.certainty z).code ++ byte1 (bitsOf (s.zone z).reasons.members)
    ++ byte1 (serviceCode (s.zone z).inService) ++ byte1 (s.zone z).headcount ++ byteFlag (s.zone z).headcountValid

/-! ### Alarms -/

/-- The distress count an alarm notice carries (R107, R117); a free value for an alarm with no zone (log entry 12). -/
def distressByte (s : State) : Option Zone → List Byte
  | some z => byte1 (s.distress z)
  | none => [Config.noZoneDistress]

/-- A condition's code (R99). -/
def conditionCode (present : Bool) : Nat := if present then 0 else 1

/-- A handling's code (R99). -/
def handlingCode (acknowledged : Bool) : Nat := if acknowledged then 1 else 0

/-- A record's fields in the order of R99, less the zone and subject, which the notice record carries. -/
def AlarmRec.dataBytes (r : AlarmRec) : List Byte :=
  byte1 r.kind.code ++ byte1 r.kind.priority ++ byte1 (conditionCode r.present) ++ byte1 (handlingCode r.acknowledged)
    ++ byte4 r.firstRaised ++ byte4 r.lastRaised ++ byte1 r.raises

/-- Every field of a record in the order of R99 (R115). -/
def AlarmRec.bytes (r : AlarmRec) : List Byte :=
  keyBytes r.kind r.zone r.subject ++ byte1 r.kind.priority ++ byte1 (conditionCode r.present)
    ++ byte1 (handlingCode r.acknowledged) ++ byte4 r.firstRaised ++ byte4 r.lastRaised ++ byte1 r.raises

/-- The distress count and generation that end an alarm notice (R107). -/
def alarmTail (s : State) (z : Option Zone) : List Byte := distressByte s z ++ byte2 s.alarms.generation.toNat

/-- R107. -/
def AlarmChange.code : AlarmChange → Nat
  | .ended => 0
  | .acknowledged => 1
  | .cleared => 2
  | .removed => 3

/-! ### Sweep -/

/-- A reply as the notice carries it: contact, bolt and last travel (R159), the contact coded by R27's list, OPEN 0 and CLOSED 1, and
not as a STATUS record codes it (DESIGN CHOICE, log entry 11). -/
def SweepReply.bytes (r : SweepReply) : List Byte :=
  byte1 (if r.contactOpen then Contact.opened.code else Contact.closed.code)
    ++ byte1 (if r.boltWithdrawn then Bolt.withdrawn.code else Bolt.thrown.code) ++ byte2 r.travel

/-- The finding of a reconciliation as the notice carries it: absent when the baseline was unknown (R159, log entry 11). -/
def reconciledBytes : Option Reconciled → List Byte
  | some (.missing i o) => byte1 1 ++ byte1 0 ++ byte1 i ++ byte1 o
  | some .discontinuous => byte1 1 ++ byte1 1
  | some .baseline | none => byte1 0

/-- The data of SWEEP_RESULT, of a sweep that ended or of a deferral (R159). -/
def sweepNoticeData (s : State) (z : Zone) (result : Option SweepOutcome) (kind : SweepKind) (made : Option SweepRec) : List Byte :=
  byteFlag result.isSome ++ byteOption (fun r => byte1 r.code) result ++ byte1 (s.zone z).deferrals ++ byte1 kind.code
    ++ reconciledBytes (made.bind (·.reconciled)) ++ byte1 (s.zone z).headcount ++ byteFlag (s.zone z).headcountValid
    ++ byte1 (s.countAt z .inner) ++ byteOption SweepReply.bytes (made.bind (·.outer))
    ++ byteOption SweepReply.bytes (made.bind (·.inner))
    ++ byteOption byte1 (if kind = .sweepAll then some (s.sweep.allList.getD []).length else none)

/-! ### Stations -/

/-- R175. -/
def SlotCause.code : SlotCause → Nat
  | .online => 0
  | .offline => 1
  | .silent => 2
  | .tamper => 3
  | .configured => 4
  | .absent => 5

/-- The data of a slot's STATION_CHANGED (R175). -/
def slotNoticeData (s : State) (l : LoopId) (a : SlotId) (cause : SlotCause) : List Byte :=
  let x := s.slot l a
  byte1 (doorAt l a).val ++ byte1 x.online.code ++ byte1 x.missed ++ byte1 x.tamper.code ++ byte1 cause.code

/-- The data of a loop's STATION_CHANGED: cause CUT (0) or RESTORED (1), and the addresses whose online state changed (R175). -/
def loopNoticeData (s : State) (l : LoopId) (restored : Bool) (changed : List SlotId) : List Byte :=
  byte1 (s.loop l).state.code ++ byteFlag restored ++ byteList (fun (a : SlotId) => byte1 (a.val + 1)) changed

/-! ### The notices due -/

/-- The notice as the state the step left gives it (R188). LATCH_CLEARED carries no key (R114), and no condition or handling either,
since it is of no one record (DESIGN CHOICE, log entry 11). -/
def DueNotice.notice (s : State) : DueNotice → Notice
  | .door d outcome => ⟨.doorChanged, s.uptime, some (zoneOf d), .door d, doorNoticeData s d outcome⟩
  | .suppression z cause => ⟨.suppressionChanged, s.uptime, some z, .none, suppNoticeData s z cause⟩
  | .zone z => ⟨.zoneChanged, s.uptime, some z, .none, zoneChangedData s z⟩
  | .alarmRaised r stored =>
    ⟨.alarmRaised, s.uptime, r.zone, r.subject, r.dataBytes ++ byteFlag stored ++ alarmTail s r.zone⟩
  | .alarmChanged r change =>
    ⟨.alarmChanged, s.uptime, r.zone, r.subject,
      byte1 r.kind.code ++ byte1 change.code ++ byte1 (conditionCode r.present) ++ byte1 (handlingCode r.acknowledged)
        ++ alarmTail s r.zone⟩
  | .latchCleared z => ⟨.alarmChanged, s.uptime, some z, .none, byte1 4 ++ alarmTail s (some z)⟩
  | .alarmDisplaced r newcomer =>
    ⟨.alarmDisplaced, s.uptime, r.zone, r.subject,
      r.dataBytes ++ keyBytes newcomer.kind newcomer.zone newcomer.subject ++ byte1 newcomer.kind.priority
        ++ byte2 s.alarms.generation.toNat⟩
  | .sweep z result kind made => ⟨.sweepResult, s.uptime, some z, .none, sweepNoticeData s z result kind made⟩
  | .slot l a cause => ⟨.stationChanged, s.uptime, some (zoneAt l a), .station l a, slotNoticeData s l a cause⟩
  | .loop l restored changed => ⟨.stationChanged, s.uptime, none, .loop l, loopNoticeData s l restored changed⟩

/-- The kind of a notice due. -/
def DueNotice.kind : DueNotice → NoticeKind
  | .door _ _ => .doorChanged
  | .suppression _ _ => .suppressionChanged
  | .zone _ => .zoneChanged
  | .alarmRaised _ _ => .alarmRaised
  | .alarmChanged _ _ | .latchCleared _ => .alarmChanged
  | .alarmDisplaced _ _ => .alarmDisplaced
  | .sweep _ _ _ _ => .sweepResult
  | .slot _ _ _ | .loop _ _ _ => .stationChanged

/-- The ports a notice due is routed to (R189): ALARM_RAISED goes to the suppression port as well for RELEASE_FAULT and LINE_FAULT. -/
def DueNotice.route (n : DueNotice) : List PortId :=
  match n with
  | .alarmRaised r _ => if r.kind = .releaseFault ∨ r.kind = .lineFault then [.suppression, .guard] else [.guard]
  | _ => n.kind.route

/-- The notice tells the end of the record with this record's key, which the step has not raised as well. -/
def DueNotice.tellsEnd (due : List DueNotice) (r : AlarmRec) : DueNotice → Bool
  | .alarmChanged x .ended =>
    x.hasKey r.kind r.zone r.subject
      && !due.any fun n => match n with
        | .alarmRaised y _ => y.hasKey r.kind r.zone r.subject
        | _ => false
  | _ => false

/-- The endings of the records of a queue, from the place of the first of them on, in the queue's order; the other notices as they stand
(R107: records ended by one request come in queue order). -/
def endingsInQueueOrder (queue : List AlarmRec) (due : List DueNotice) : List DueNotice :=
  let other (n : DueNotice) : Bool := !queue.any fun r => n.tellsEnd due r
  due.takeWhile other ++ queue.flatMap (fun r => due.filter (DueNotice.tellsEnd due r)) ++ (due.dropWhile other).filter other

/-- The notices due are placed in the order of their changes, each with the fields the step left (R188, R190, log entry 39). -/
def giveDueNotices (s : State) : State := s.work.due.foldl (fun t n => t.notifyPorts n.route (n.notice s)) s

end Sys2Proof.Machine
end

