-- ==== Sys2Proof/Machine/Alarms.lean ====
section
/-! DEFINITION. The alarm unit's operations: raising (R102 to R106), ending (R108) and their notices (R107). -/
namespace Sys2Proof.Machine

/-- The alarm generation increases once for each event or request that makes, changes or removes a record (R107); a STATION_REPLY is one
event for it, whatever reports it carries (DESIGN CHOICE, log entry 40). -/
def touchAlarms (s : State) : State :=
  if s.work.alarmTouched then s
  else { s with work.alarmTouched := true, alarms.generation := s.alarms.generation + 1 }

/-- The ALARM_RAISED notice of a raising, with the record after it (R107). -/
def noticeRaised (r : AlarmRec) (stored : Bool) (s : State) : State := s.dueNotice (.alarmRaised r stored)

/-- The ALARM_CHANGED notice of a record, with the record after the change (R107). -/
def noticeChanged (r : AlarmRec) (change : AlarmChange) (s : State) : State := s.dueNotice (.alarmChanged r change)

/-- The ALARM_CHANGED notice of change LATCH_CLEARED, with no key (R114, log entry 11). -/
def noticeLatchCleared (z : Zone) (s : State) : State := s.dueNotice (.latchCleared z)

/-- The ALARM_DISPLACED notice (R105, R107). -/
def noticeDisplaced (r newcomer : AlarmRec) (s : State) : State := s.dueNotice (.alarmDisplaced r newcomer)

/-- A new record's place: after every record of its priority or a more urgent one (R101). -/
def insertAlarm (r : AlarmRec) : List AlarmRec → List AlarmRec
  | [] => [r]
  | x :: xs => if x.kind.priority ≤ r.kind.priority then x :: insertAlarm r xs else r :: x :: xs

/-- The oldest record, by first raised and then by queue order, that is both ENDED and ACKNOWLEDGED (R104). -/
def reclaimable (q : List AlarmRec) : Option AlarmRec :=
  q.foldl (fun best r =>
    if !r.present && r.acknowledged then
      match best with
      | none => some r
      | some b => if r.firstRaised < b.firstRaised then some r else best
    else best) none

/-- Removes the record with a record's key (R101: no two have the same). -/
def eraseAlarm (r : AlarmRec) (q : List AlarmRec) : List AlarmRec :=
  q.filter fun x => !x.hasKey r.kind r.zone r.subject

/-- The record a new alarm makes (R103). -/
def newAlarm (s : State) (kind : AlarmKind) (zone : Option Zone) (subject : Subject) : AlarmRec :=
  { kind := kind, zone := zone, subject := subject, present := true, acknowledged := false, firstRaised := s.uptime,
    lastRaised := s.uptime, raises := 1 }

/-- The re-raise of a record (R102). -/
def reraised (now : Nat) (r : AlarmRec) : AlarmRec :=
  { r with present := true, acknowledged := false, lastRaised := now, raises := min (r.raises + 1) 255 }

/-- Sets a zone's overflow distress latch for a distress alarm (R117). -/
def latchDistress (kind : AlarmKind) (zone : Option Zone) (s : State) : State :=
  match zone with
  | some z => if kind.distress then s.setLatch z true else s
  | none => s

/-- Makes a record at its place and gives its notice (R101, R103). -/
def makeAlarm (r : AlarmRec) (s : State) : State :=
  noticeRaised r true (touchAlarms { s with alarms.queue := insertAlarm r s.alarms.queue })

/-- A new alarm when the queue is full (R104 to R106). The record an unstored alarm's ALARM_RAISED carries is the one it would have made, with
condition PRESENT and handling NEW (DESIGN CHOICE, log entry 41). -/
def raiseFull (r : AlarmRec) (s : State) : State :=
  match reclaimable s.alarms.queue with
  | some old =>
    makeAlarm r (noticeChanged old .removed (touchAlarms { s with alarms.queue := eraseAlarm old s.alarms.queue }))
  | none =>
    match s.alarms.queue.getLast? with
    | some last =>
      if r.kind.priority < last.kind.priority then
        let s1 := touchAlarms { s with alarms.queue := eraseAlarm last s.alarms.queue }
        let s2 := if last.present then latchDistress last.kind last.zone s1 else s1
        makeAlarm r (noticeDisplaced last r s2)
      else
        noticeRaised r false
          (latchDistress r.kind r.zone
            { s with alarms.overflowMark := true, alarms.overflowCount := min (s.alarms.overflowCount + 1) 255 })
    | none => s

/-- A raising of a kind, zone and subject (R102 to R106). -/
def raiseAlarm (kind : AlarmKind) (zone : Option Zone) (subject : Subject) (s : State) : State :=
  match s.alarms.queue.find? fun r => r.hasKey kind zone subject with
  | some r =>
    noticeRaised (reraised s.uptime r) true
      (touchAlarms { s with alarms.queue := (s.alarms.queue.map fun x => if x.hasKey kind zone subject then reraised s.uptime x else x) })
  | none =>
    if s.alarms.queue.length < Config.alarmCap then makeAlarm (newAlarm s kind zone subject) s
    else raiseFull (newAlarm s kind zone subject) s

/-- An ending of a kind, zone and subject (R108). -/
def endAlarm (kind : AlarmKind) (zone : Option Zone) (subject : Subject) (s : State) : State :=
  match s.alarms.queue.find? fun r => r.hasKey kind zone subject && r.present with
  | some r =>
    noticeChanged { r with present := false } .ended
      (touchAlarms { s with alarms.queue :=
        (s.alarms.queue.map fun x => if x.hasKey kind zone subject then { x with present := false } else x) })
  | none => s

/-- The keys of the PRESENT records that fit a test, in queue order (R107: ended in queue order). -/
def presentKeys (s : State) (p : AlarmRec → Bool) : List (AlarmKind × Option Zone × Subject) :=
  (s.alarms.queue.filter fun r => r.present && p r).map fun r => (r.kind, r.zone, r.subject)

/-- Ends every PRESENT record that fits a test, in queue order. -/
def endAlarms (p : AlarmRec → Bool) (s : State) : State :=
  (presentKeys s p).foldl (fun t k => endAlarm k.1 k.2.1 k.2.2 t) s

end Sys2Proof.Machine
end

