-- ==== Sys2Proof/Machine/Suppression.lean ====
section
/-! DEFINITION. The suppression unit's operations: hold reasons (R126 to R129), confirmation (R124), release (R131), the force window
(R141 to R144), the outputs (R145) and the SUPPRESSION_CHANGED notice (R147). -/
namespace Sys2Proof.Machine

/-- The notice of a zone's suppression record is among those due. -/
def DueNotice.ofSuppression (z : Zone) : DueNotice → Bool
  | .suppression y _ => y == z
  | _ => false

/-- The zone's notice is due at the end of the step, with the cause of the first event that asks for it (R147). -/
def suppNotice (z : Zone) (cause : SuppCause) (s : State) : State :=
  if s.work.due.any (DueNotice.ofSuppression z) then s else s.dueNotice (.suppression z cause)

/-- A change of a zone's record whose state may change: entry to and exit from evacuation are handed on (R125). -/
def setSuppState (z : Zone) (x : SuppRec) (s : State) : State :=
  let before := s.inEvacuation z
  let s1 := s.setSuppRec z x
  if x.state.evacuation && !before then s1.handOn (.evacuationEntered z)
  else if before && !x.state.evacuation then s1.handOn (.evacuationLeft z)
  else s1

/-- Confirmation of a zone (R124). -/
def confirmZone (z : Zone) (s : State) : State :=
  let r := s.suppRec z
  setSuppState z
    { r with confirmed := true, countdown := (s.cfg z).preDischarge * 1000,
             state := if r.holds.any then .held else .preDischarge } s

/-- Entry to RELEASING (R131). -/
def enterReleasing (z : Zone) (cause : ReleaseCause) (s : State) : State :=
  let r := s.suppRec z
  setSuppState z
    { r with state := .releasing, cause := some cause, countdown := 0,
             deadline := some (s.now + (s.cfg z).confirmTime * 1000) } s

/-- The causes of FORCE_WINDOW (R141 to R144); their codes are free (log entry 12). -/
inductive ForceCause where
  | windowOpened
  | disabled
  | halfTaken
  | completed
  | expired
  | abort
  | portReset
  | halvesDiscarded
  deriving DecidableEq, Repr

/-- The place of a cause among those of R141 to R144. -/
def ForceCause.index : ForceCause → Nat
  | .windowOpened => 0
  | .disabled => 1
  | .halfTaken => 2
  | .completed => 3
  | .expired => 4
  | .abort => 5
  | .portReset => 6
  | .halvesDiscarded => 7

/-- The FORCE_WINDOW notice (R141 to R144); its zone field is absent for every cause (DESIGN CHOICE, log entry 46). -/
def noticeForce (cause : ForceCause) (s : State) : State :=
  s.notify .forceWindow none .none [Config.forceCauseCode cause.index]

/-- A half names the zone (R144). -/
def State.halfNames (s : State) (z : Zone) : Bool :=
  s.supp.window.suppressionHalf == some z || s.supp.window.guardHalf == some z

/-- The window closes and its halves are discarded (R144). -/
def closeWindow (cause : ForceCause) (s : State) : State :=
  noticeForce cause { s with supp.window := ⟨none, none, none⟩ }

/-- A zone named by a held half leaves HELD other than into RELEASING: the halves are discarded (R144). -/
def discardHalves (z : Zone) (s : State) : State :=
  if s.halfNames z then
    noticeForce .halvesDiscarded { s with supp.window := ⟨s.supp.window.closesAt, none, none⟩ }
  else s

/-- The hold reasons as their sources give them (R126). -/
def holdSources (s : State) (z : Zone) : HoldSet :=
  { abort := s.abortActive z, occupied := s.certainty z == .occupied, uncertain := s.certainty z == .uncertain,
    distress := 0 < s.distress z, panelHold := (s.suppRec z).holds.panelHold }

/-- The sounder pattern of a state (R145). -/
def SuppState.sounder : SuppState → SounderPattern
  | .normal | .vent | .isolated => .off
  | .alert => .chime
  | .preDischarge => .warn
  | .held => .hold
  | .releasing | .soak | .releaseFault => .discharge

/-- The three outputs of a zone for its suppression state (R145, R181); a pattern begins with its sounding part, and one that
is kept goes on without a break. They are set at each change that the hold reasons make, which alone can bring a zone back to a state it
left in the same step, and at the end of every step (log entry 6). -/
def driveOutputs (z : Zone) (s : State) : State :=
  let st := (s.suppRec z).state
  let o := s.output z
  let o1 := { o with release := st == .releasing, vent := st == .vent }
  s.setOutput z
    (if o.pattern = st.sounder then o1
     else { o1 with pattern := st.sounder, sounding := st.sounder != .off, since := s.now })

/-- A zone in PREDISCHARGE with a hold reason enters HELD (R128); one in HELD with none resumes (R129); the outputs follow at the change
(R145). -/
def holdTransition (z : Zone) (s : State) : State :=
  let r := s.suppRec z
  match r.state with
  | .preDischarge =>
    if r.holds.any then driveOutputs z (suppNotice z .holdChange (s.setSuppRec z { r with state := .held })) else s
  | .held =>
    if r.holds.any then s
    else
      discardHalves z (driveOutputs z (suppNotice z .holdChange
        (s.setSuppRec z { r with state := .preDischarge, countdown := max r.countdown ((s.cfg z).resume * 1000) })))
  | _ => s

/-- The hold reasons become these, and the state follows (R126, R128, R129); an abort on a zone named by a half closes the force window
(R144). -/
def changeHolds (z : Zone) (h : HoldSet) (s : State) : State :=
  let r := s.suppRec z
  let s1 := if h = r.holds then s else suppNotice z .holdChange (s.setSuppRec z { r with holds := h })
  let s2 := if h.abort && !r.holds.abort && s1.halfNames z then closeWindow .abort s1 else s1
  holdTransition z s2

/-- The hold reasons take in their sources as they stand (R126). -/
def refreshHolds (z : Zone) (s : State) : State := changeHolds z (holdSources s z) s

/-- A changed certainty handed on by the roster unit is taken in (R19, R126). -/
def takeCertainty (z : Zone) (c : Certainty) (s : State) : State :=
  changeHolds z { (s.suppRec z).holds with occupied := c == .occupied, uncertain := c == .uncertain } s

/-- The period of a pattern and its sounding part, ms (R145). -/
def SounderPattern.cadence : SounderPattern → Nat × Nat
  | .off => (1, 0)
  | .chime => (10000, 200)
  | .warn => (1000, 500)
  | .hold => (2000, 250)
  | .discharge => (1, 1)

/-- Whether a zone's sounder sounds by its pattern's cadence at now (R145). -/
def cadenceLevel (s : State) (z : Zone) : Bool :=
  let o := s.output z
  (s.now - o.since) % o.pattern.cadence.1 < o.pattern.cadence.2

/-- A qualified manual pull (R123). -/
def takePull (z : Zone) (s : State) : State :=
  let r := s.suppRec z
  if r.state = .normal ∨ r.state = .alert then confirmZone z (suppNotice z .pull s)
  else suppNotice z .pull (s.setSuppRec z { r with pullSeen := true })

/-- A qualified pressure activation (R131, R133). -/
def takePressure (z : Zone) (s : State) : State :=
  let r := s.suppRec z
  if r.state = .releasing then
    setSuppState z
      { r with state := .soak, deadline := some (s.now + (s.cfg z).soakTime * 1000), soakComplete := false }
      (suppNotice z .pressure s)
  else suppNotice z .pressureUnexpected s

/-- The key chord has qualified (R141). -/
def takeChord (s : State) : State :=
  if s.control.forceChord && s.supp.window.closesAt.isNone then
    noticeForce .windowOpened { s with supp.window := ⟨some (s.now + Config.forceWindowMs), none, none⟩ }
  else s

end Sys2Proof.Machine
end

