-- ==== Sys2Proof/Machine/Roster.lean ====
section
/-! DEFINITION. The roster unit's claims (R13 to R18), what it hands on at the end of each (R12, R19), and the responses of the hours
and alarm units that are amends of the roster (R90, R94, R97, R110, R111). -/
namespace Sys2Proof.Machine

/-! ### The PASSAGE_DECIDED notice (R68) -/

/-- The sources of a decision (R68). -/
inductive Source where
  | verdict
  | cache
  | none
  deriving DecidableEq, Repr

/-- R68. -/
def Source.code : Source → Nat
  | .verdict => 0
  | .cache => 1
  | .none => 2

/-- The outcomes of a presentation (R68). -/
inductive Decided where
  | admitted
  | joined
  | pairWait
  | wait
  | denied
  deriving DecidableEq, Repr

/-- R68. -/
def Decided.code : Decided → Nat
  | .admitted => 0
  | .joined => 1
  | .pairWait => 2
  | .wait => 3
  | .denied => 4

/-- The reasons of chapters 3 and 4; their codes are free (log entry 12). -/
inductive PassageReason where
  | none
  | badBadge
  | policy
  | deniedByMaster
  | superseded
  | noCredential
  | doorBusy
  | doorUnavailable
  | noRights
  | passback
  | hours
  | pinUnchecked
  | pinRequired
  | escortRequired
  | rosterFull
  | rosterConflict
  | wrongState
  | pairExpired
  | pairCleared
  deriving DecidableEq, Repr

/-- A reason's place in the chapters' order, to which the free code is applied. -/
def PassageReason.index : PassageReason → Nat
  | .none => 0
  | .badBadge => 1
  | .policy => 2
  | .deniedByMaster => 3
  | .superseded => 4
  | .noCredential => 5
  | .doorBusy => 6
  | .doorUnavailable => 7
  | .noRights => 8
  | .passback => 9
  | .hours => 10
  | .pinUnchecked => 11
  | .pinRequired => 12
  | .escortRequired => 13
  | .rosterFull => 14
  | .rosterConflict => 15
  | .wrongState => 16
  | .pairExpired => 17
  | .pairCleared => 18

/-- The PASSAGE_DECIDED notice (R68); of the door and the badge that R68 lists, its subject is the door and the badge stands in its
data. An absent reason is one code byte like any other, with no presence byte; the group has a presence byte of its own, and the entry
numbers a bare count, 0 for none (DESIGN CHOICE, log entry 11). -/
def noticePassage (d : DoorId) (badge : Badge) (source : Source) (outcome : Decided) (reason : PassageReason)
    (group : Option Nat) (entries : List EntryNo) (query : Option Byte) (s : State) : State :=
  s.notify .passageDecided (some (zoneOf d)) (.door d)
    (byte4 badge.toNat ++ byte1 source.code ++ byte1 outcome.code ++ [Config.passageReasonCode reason.index]
      ++ byteOption byte1 group ++ byteList (fun (n : EntryNo) => byte1 n.val) entries
      ++ byteOption (fun (q : Byte) => [q]) query)

/-! ### The end of a claim (R12) -/

/-- Whether a claim changed the zone's roster or certainty (R12): `touched` says that it made or removed entries, which a roster that
reads as before does not show. -/
def rosterChanged (touched : Bool) (z : Zone) (before s : State) : Bool :=
  touched || before.roster z != s.roster z || before.certainty z != s.certainty z

/-- The roster generation at the end of a claim (R12). -/
def bumpGeneration (touched : Bool) (z : Zone) (before s : State) : State :=
  if rosterChanged touched z before s then s.setZone z { s.zone z with generation := (s.zone z).generation + 1 } else s

/-- The ZONE_CHANGED notice at the end of a claim (R12). -/
def noticeZone (touched : Bool) (z : Zone) (before s : State) : State :=
  if rosterChanged touched z before s || (before.zone z).reasons != (s.zone z).reasons
      || (before.zone z).headcountValid != (s.zone z).headcountValid || (before.zone z).inService != (s.zone z).inService then
    s.dueNotice (.zone z)
  else s

/-- The end of a claim: generation and notice, judged against the state before it (R12). -/
def endClaim (touched : Bool) (z : Zone) (before s : State) : State :=
  noticeZone touched z before (bumpGeneration touched z before s)

/-- An amend of entries of a zone (R18), which moves and counts nobody. -/
def amendEntries (z : Zone) (f : Entry → Entry) (s : State) : State :=
  endClaim false z s { s with pool := (s.pool.map fun e => if e.zone = z then f e else e) }

/-! ### The warning mark (R90) -/

/-- A badged entry whose deadline lies within the lead, or that is overdue and carries none (R90, R91). -/
def Entry.warns (uptime : Nat) (e : Entry) : Bool :=
  e.badged && match e.deadline with
    | none => true
    | some t => t ≤ uptime + Config.warningLeadS

/-- The condition of a zone's warning mark (R90). -/
def warningDue (s : State) (z : Zone) : Bool :=
  s.hours.state == .afterHours && (s.roster z).any (Entry.warns s.uptime)

/-- The evaluation of a zone's warning mark; a check-in that clears it sends nothing (R90). -/
def evalWarning (z : Zone) (checkIn : Bool) (s : State) : State :=
  match s.warning z, warningDue s z with
  | none, true => (s.setWarning z (some (s.uptime + Config.warnResendS))).indicate z .vault .warnCheckin
  | some _, false =>
    let s1 := s.setWarning z none
    if checkIn then s1 else s1.indicate z .vault .idle
  | _, _ => s

/-! ### The lone-occupant rule (R89, R94) -/

/-- A zone's lone-worker interval in seconds (R89). -/
def State.fullInterval (s : State) (z : Zone) : Nat := (s.cfg z).loneInterval * 60

/-- Half the interval in seconds (R89). -/
def State.halfInterval (s : State) (z : Zone) : Nat := (s.cfg z).loneInterval * 60 / 2

/-- A zone has a lone occupant (R94). -/
def State.loneOccupant (s : State) (z : Zone) : Bool := s.badgedCount z == 1 && s.anonymousCount z == 0

/-- The response to a change of a zone's counts (R94). -/
def loneRule (z : Zone) (s : State) : State :=
  if s.hours.state = .dayHours then s
  else if s.loneOccupant z then
    amendEntries z
      (fun e =>
        if e.badged && !e.lone then
          { e with lone := true, deadline := e.deadline.map fun t => min t (s.uptime + s.halfInterval z) }
        else e) s
  else amendEntries z (fun e => { e with lone := false }) s

/-! ### Unescorted visitors (R110, R111) -/

/-- A VISITOR or CONTRACTOR (R110). -/
def Role.needsEscort : Role → Bool
  | .visitor | .contractor => true
  | _ => false

/-- An entry is escorted (R110). -/
def escorted (s : State) (z : Zone) (e : Entry) : Bool :=
  (s.roster z).any fun x =>
    x.role == .escort && (x.location != .admitted || (e.group.isSome && x.group == e.group))

/-- Marks one visitor UNESCORTED and raises its alarm (R110). -/
def markUnescorted (z : Zone) (n : EntryNo) (badge : Option Badge) (s : State) : State :=
  match badge with
  | some b =>
    raiseAlarm .unescortedVisitor (some z) (.badge b)
      (amendEntries z (fun e => if e.number = n then { e with unescorted := true } else e) s)
  | none => s

/-- After the removal of an ESCORT: every visitor no longer escorted, in list order (R110). -/
def markVisitors (z : Zone) (s : State) : State :=
  ((s.roster z).filter fun e => e.role.needsEscort && !e.unescorted && !escorted s z e).foldl
    (fun t e => markUnescorted z e.number e.badge t) s

/-- The subject is the badge of one of these entries. -/
def namesBadge (es : List Entry) (x : Subject) : Bool := es.any fun e => e.badge.map Subject.badge == some x

/-- An ESCORT has arrived at VESTIBULE or INNER: every UNESCORTED mark of the zone is cleared and its condition ended (R111). -/
def clearUnescorted (z : Zone) (s : State) : State :=
  let marked := (s.roster z).filter fun e => e.unescorted
  endAlarms (fun r => r.kind == .unescortedVisitor && r.zone == some z && namesBadge marked r.subject)
    (amendEntries z (fun e => { e with unescorted := false }) s)

/-! ### Pairing records (R96, R97) -/

/-- Clears a zone's pairing record with the held role and duress mark (R97). -/
def dropPairing (z : Zone) (s : State) : State :=
  (s.setZone z { s.zone z with pairing := none }).setZonePassage z { s.zonePassage z with held := none }

/-- A pairing record cleared by the hours unit: the first badge is told DENIED with the cause, and the corridor reader is sent
DENIED unless LOCKDOWN goes to it in the same change (R97). -/
def clearPairing (z : Zone) (cause : PassageReason) (sendDenied : Bool) (s : State) : State :=
  match (s.zone z).pairing with
  | some p =>
    let s1 := noticePassage p.door p.badge .none .denied cause none [] none (dropPairing z s)
    if sendDenied then s1.indicate z .corridor .denied else s1
  | none => s

/-! ### The hand-ons of R19 -/

/-- The badged entries that left the zone's roster in a claim (R19). -/
def removedBadged (z : Zone) (before s : State) : List Entry :=
  (before.roster z).filter fun e => e.badged && !(s.roster z).any fun x => x.badge == e.badge

/-- An ESCORT entry arrived at VESTIBULE or INNER in a claim, by creation or relocation (R19). -/
def escortArrived (z : Zone) (before s : State) : Bool :=
  (s.roster z).any fun e =>
    e.role == .escort && e.location != .admitted
      && !(before.roster z).any fun x => x.badge == e.badge && x.location == e.location

/-- The records the end of a claim ends: the overdue and unescorted conditions of the badges removed (R109, R111), and the zone's TAILGATE
records when its certainty leaves UNCERTAIN (R109). -/
def endedByClaim (z : Zone) (gone : List Entry) (certain : Bool) (r : AlarmRec) : Bool :=
  r.zone == some z
    && match r.kind with
      | .loneWorkerOverdue | .unescortedVisitor => namesBadge gone r.subject
      | .tailgate => certain
      | _ => false

/-- What the alarm unit does with a claim's changes (R19, R109 to R111); the conditions it ends come in queue order (R107). -/
def alarmTakesClaim (z : Zone) (before s : State) : State :=
  let gone := removedBadged z before s
  let certain := before.certainty z == .uncertain && s.certainty z != .uncertain
  let s1 := endAlarms (endedByClaim z gone certain) s
  let s2 := if gone.any fun e => e.role == .escort then markVisitors z s1 else s1
  if escortArrived z before s then clearUnescorted z s2 else s2

/-- What the hours unit does with a claim's changes (R19, R90, R94, R97). -/
def hoursTakesClaim (touched : Bool) (z : Zone) (before s : State) : State :=
  let s1 :=
    if before.badgedCount z != s.badgedCount z || before.anonymousCount z != s.anonymousCount z then loneRule z s else s
  let s2 := if before.roster z == [] && s.roster z != [] then clearPairing z .pairCleared true s1 else s1
  if touched || before.roster z != s.roster z then evalWarning z false s2 else s2

/-- The zone's new certainty is handed to the suppression unit when it changed (R19). -/
def handCertainty (z : Zone) (before s : State) : State :=
  if before.certainty z = s.certainty z then s else s.handOn (.certainty z (s.certainty z))

/-- A claim or request on a zone, with the mark that it made or removed entries: it is performed whole, its end is noted (R12) and its
changes are handed on (R19). R19 names no order among the units: here the certainty for the suppression unit joins the list of hand-ons
(log entry 5), while the hours unit and then the alarm unit take theirs at once, inside the claim (DESIGN CHOICE, log entry 57). -/
def claimWith (touched : Bool) (z : Zone) (f : State → State) (s : State) : State :=
  let s1 := handCertainty z s (endClaim touched z s (f s))
  alarmTakesClaim z s (hoursTakesClaim touched z s s1)

/-- A claim whose making or removing of entries the roster shows. -/
def claim (z : Zone) (f : State → State) (s : State) : State := claimWith false z f s

/-! ### Reasons and headcount (R7, R9, R11) -/

/-- A claim adding an uncertain reason; while the sweep mark is set it is added to the late reasons too (R9, R11). -/
def addReasonCore (z : Zone) (r : Reason) (s : State) : State :=
  let x := s.zone z
  s.setZone z
    { x with reasons := x.reasons.insert r, late := if x.sweepMark then x.late.insert r else x.late }

/-- A claim adding an uncertain reason (R9). -/
def addReason (z : Zone) (r : Reason) (s : State) : State := claim z (addReasonCore z r) s

/-- A headcount adjustment of `up` inbound and `down` outbound crossings, saturating with COUNT_MISMATCH (R7). -/
def adjustHeadcount (z : Zone) (up down : Nat) (s : State) : State :=
  let h := (s.zone z).headcount
  if h + up < down then addReason z .countMismatch (s.setZone z { s.zone z with headcount := 0 })
  else if 255 < h + up - down then addReason z .countMismatch (s.setZone z { s.zone z with headcount := 255 })
  else s.setZone z { s.zone z with headcount := h + up - down }

/-! ### Creation, relocation, removal (R14 to R17) -/

/-- Creates an entry in the lowest free slot, at the end of the list (R3). -/
def createEntry (mk : EntryNo → Entry) (s : State) : State :=
  match lowestFree s.pool with
  | some n => { s with pool := s.pool ++ [mk n] }
  | none => s

/-- An anonymous entry (R5, R15). -/
def anonymousEntry (s : State) (z : Zone) (loc : Location) (n : EntryNo) : Entry :=
  { number := n, zone := z, badge := none, role := .unidentified, location := loc, admittedAt := s.uptime, escort := none,
    deadline := none, checkIns := 0, duress := false, unescorted := false, lone := false, group := none }

/-- Whether one more entry fits the pool and the zone's cap (R3, R15). -/
def roomForOne (s : State) (z : Zone) : Bool :=
  (lowestFree s.pool).isSome && (s.roster z).length < (s.cfg z).cap

/-- Create anonymous (R15): refused, it adds TAILGATE_OVERFLOW in the same step. -/
def createAnonymous (z : Zone) (loc : Location) (s : State) : State :=
  if roomForOne s z then claim z (createEntry (anonymousEntry s z loc)) s
  else addReason z .tailgateOverflow s

/-- A member of an admit group claim (R14). -/
structure Member where
  badge : Badge
  role : Role
  escort : Option Badge
  duress : Bool
  deriving DecidableEq, Repr

/-- The entry admit group creates for a member (R14). -/
def admittedEntry (s : State) (z : Zone) (group : Nat) (m : Member) (n : EntryNo) : Entry :=
  { number := n, zone := z, badge := some m.badge, role := m.role, location := .admitted, admittedAt := s.uptime,
    escort := if m.role.needsEscort then m.escort else none,
    deadline := if s.hours.state = .afterHours then some (s.uptime + s.fullInterval z) else none,
    checkIns := 0, duress := m.duress, unescorted := false, lone := false, group := some group }

/-- The tests of admit group in the order of R14; absent when all pass. -/
def admitTest (s : State) (z : Zone) (members : List Member) : Option Status :=
  if !(s.zone z).inService then some .wrongState
  else if members.any (fun m => (s.entryOfBadge m.badge).isSome) || !(members.map (·.badge)).Nodup then some .rosterConflict
  else if s.freeSlots < members.length || (s.cfg z).cap < (s.roster z).length + members.length then some .rosterFull
  else none

/-- Admit group (R14), its tests passed. -/
def admitGroup (z : Zone) (group : Nat) (members : List Member) (s : State) : State :=
  claim z (fun t => members.foldl (fun u m => createEntry (admittedEntry s z group m) u) t) s

/-- The group treatments of relocate (R16). -/
inductive GroupChange where
  | keep
  | become (group : Nat)
  | remove
  deriving DecidableEq, Repr

/-- Applies a group treatment. -/
def GroupChange.apply (c : GroupChange) (g : Option Nat) : Option Nat :=
  match c with
  | .keep => g
  | .become n => some n
  | .remove => none

/-- The moves of R6. -/
def allowedMove : Location → Location → Bool
  | .admitted, .vestibule | .vestibule, .inner | .inner, .vestibule => true
  | _, _ => false

/-- Changes the first `limit` entries that fit a test, in list order. -/
def changeFirst (p : Entry → Bool) (f : Entry → Entry) : Nat → List Entry → List Entry
  | 0, es => es
  | _ + 1, [] => []
  | k + 1, e :: es => if p e then f e :: changeFirst p f k es else e :: changeFirst p f (k + 1) es

/-- Relocate (R16): the selected entries of the zone at the from-location, up to the limit, move; a move outside R6 is refused. -/
def relocate (z : Zone) (sel : Entry → Bool) (src dst : Location) (g : GroupChange) (limit : Nat) (s : State) : State :=
  if allowedMove src dst then
    claim z
      (fun t => { t with pool := (changeFirst (fun e => e.zone == z && sel e && e.location == src)
        (fun e => { e with location := dst, group := g.apply e.group }) limit t.pool) }) s
  else s

/-- Remove (R17): the selected entries leave the zone's roster and free their slots. -/
def removeEntries (z : Zone) (sel : Entry → Bool) (s : State) : State :=
  claim z (fun t => { t with pool := (t.pool.filter fun e => !(e.zone == z && sel e)) }) s

/-- Amend of the group field of the selected entries (R18). -/
def amendGroup (z : Zone) (sel : Entry → Bool) (g : Option Nat) (s : State) : State :=
  amendEntries z (fun e => if sel e then { e with group := g } else e) s

/-! ### Sweep claims (R11) -/

/-- The sweep's start claim: the mark is set and the late reasons emptied (R11). -/
def sweepStartClaim (z : Zone) (s : State) : State :=
  s.setZone z { s.zone z with sweepMark := true, late := ReasonSet.empty }

/-- The reasons a result leaves (R11, R157). -/
def sweptReasons (x : ZoneRec) : SweepOutcome → ReasonSet
  | .pass => { x.late with restart := x.late.restart || x.reasons.restart }
  | .mismatch => x.reasons.insert .countMismatch
  | _ => x.reasons

/-- The sweep's result claim: the reasons follow the result, the mark is cleared and the late reasons emptied (R11, R157). -/
def sweepResultClaim (z : Zone) (result : SweepOutcome) (s : State) : State :=
  claim z
    (fun t => t.setZone z
      { t.zone z with reasons := sweptReasons (t.zone z) result, sweepMark := false, late := ReasonSet.empty,
                      lastResult := result }) s

end Sys2Proof.Machine
end

