-- ==== Sys2Proof/Machine/Doors.lean ====
section
/-! DEFINITION. The door unit's operations: releases and their wait reasons (R28 to R32), bolt, contact and window (R33 to R38), faulted
and unverified doors (R39 to R42), cutting short (R44), sweeps (R47) and the actuator rails (R48 to R50). -/
namespace Sys2Proof.Machine

/-- A DOOR_CHANGED notice is due at the end of the step for a change of the door, with the outcome of a release that ended (R51). -/
def doorNotice (d : DoorId) (outcome : Option ReleaseEnd) (s : State) : State := s.dueNotice (.door d outcome)

/-- The release window in ms (R33). -/
def State.windowMs (s : State) : Nat := s.partCfg.releaseWindow * 1000

/-- The bolt timer's length: twice the zone's travel limit (R33). -/
def State.boltMs (s : State) (d : DoorId) : Nat := 2 * (s.cfg (zoneOf d)).travelLimit

/-- The held-open timer of a door entering OPEN: it runs unless the release is of kind HOLD (R38). -/
def heldOpenTimer (s : State) (release : Option Release) : Option Nat :=
  match release with
  | some r => if r.kind = .hold then none else some (s.now + s.partCfg.heldOpenLimit * 1000)
  | none => some (s.now + s.partCfg.heldOpenLimit * 1000)

/-! ### Rail queues (R49, R50) -/

/-- A rail's egress releases stand ahead of its non-egress ones (R49). -/
def State.isEgress (s : State) (d : DoorId) : Bool :=
  match (s.door d).release with
  | some r => r.kind == .egress
  | none => false

/-- A release joins a rail queue at its place in the order of R49. -/
def joinQueue (egress : DoorId → Bool) (d : DoorId) (q : List DoorId) : List DoorId :=
  if egress d then q.filter egress ++ [d] ++ q.filter fun x => !egress x else q ++ [d]

/-- While a place is free and the outside list is not empty, its front joins the queue (R50). -/
def refillQueue (egress : DoorId → Bool) (x : RailRec) : RailRec :=
  match x.outside with
  | d :: rest =>
    if x.queue.length < Config.railQueueCap then { x with queue := joinQueue egress d x.queue, outside := rest } else x
  | [] => x

/-- A release leaves its rail's queue or outside list (R30, R50). -/
def leaveRail (d : DoorId) (s : State) : State :=
  let r := s.railOf d
  let x := s.rail r
  s.setRail r
    (refillQueue s.isEgress { x with queue := (x.queue.filter (· != d)), outside := (x.outside.filter (· != d)) })

/-! ### Release ends (R28, R51) -/

/-- Detaches a door's release with an outcome and hands the end to the passage unit (R28, R51). -/
def detachRelease (d : DoorId) (outcome : ReleaseEnd) (lost : Bool) (s : State) : State :=
  match (s.door d).release with
  | some r =>
    ((leaveRail d s).setDoor d { s.door d with release := none }).handOn (.released d r outcome lost)
  | none => s

/-- A QUEUED release ends and its door returns to SECURED, settle time and secured at as they were (R32, R44, R49). -/
def endQueued (d : DoorId) (outcome : ReleaseEnd) (s : State) : State :=
  let s1 := detachRelease d outcome false s
  let s2 := s1.setDoor d { s1.door d with state := .secured }
  ((doorNotice d (some outcome) s2).handOnFirst (.reevaluate (zoneOf d))).handOn (.secured d)

/-! ### Withdrawal and the rail (R33, R48, R49) -/

/-- The last four starts (R48). -/
def pushHistory (t : Nat) (h : List Nat) : List Nat :=
  let l := h ++ [t]
  l.drop (l.length - Config.railBudget)

/-- A withdrawal begins (R33, R48); at an inner door the cycle tally is set to 0 and 0 (R78). -/
def beginWithdrawal (d : DoorId) (s : State) : State :=
  let s1 := leaveRail d s
  let r := s1.railOf d
  let s2 := s1.setRail r { s1.rail r with history := pushHistory s1.now (s1.rail r).history }
  let x := s2.door d
  let s3 := s2.setDoor d
    { x with state := .withdrawing, boltTimer := some (s2.now + s2.boltMs d),
             release := x.release.map fun q => { q with wait := WaitSet.empty } }
  let s4 := (doorNotice d none s3).giveDoorCmd d .withdraw
  let s5 :=
    if isOuter d then s4
    else s4.setZonePassage (zoneOf d) { s4.zonePassage (zoneOf d) with tallyIn := 0, tallyOut := 0 }
  s5.handOnFirst (.reevaluate (zoneOf d))

/-- Writes the wait reasons of a door's release. -/
def setWait (d : DoorId) (w : WaitSet) (s : State) : State :=
  s.setDoor d { s.door d with release := (s.door d).release.map fun q => { q with wait := w } }

/-- A release whose other reasons are clear is offered to its rail as a new arrival (R48, R49). -/
def offerRail (d : DoorId) (s : State) : State :=
  let r := s.railOf d
  let x := s.rail r
  if x.queue = [] ∧ s.railHasRoom r then beginWithdrawal d s
  else
    let s1 := setWait d { WaitSet.empty with rail := true } s
    if x.queue.length < Config.railQueueCap then
      s1.setRail r { x with queue := joinQueue s.isEgress d x.queue }
    else if s.isEgress d then
      match (x.queue.filter fun q => !s.isEgress q).getLast? with
      | some newest =>
        let s2 := s1.setRail r { x with queue := joinQueue s.isEgress d (x.queue.filter (· != newest)) }
        endQueued newest .railBusy s2
      | none => s1.setRail r { x with outside := x.outside ++ [d] }
    else endQueued d .railBusy s1

/-! ### Wait reasons (R30, R31) -/

/-- The interlock of R31 applies to a QUEUED release on door d. -/
def interlockHolds (s : State) (d : DoorId) (kind : ReleaseKind) : Bool :=
  if kind = .egress ∧ s.inEvacuation (zoneOf d) then false
  else
    let o := s.door (otherDoor d)
    match o.state with
    | .secured => false
    | .queued =>
      match o.release with
      | some q => !q.wait.interlock && !(q.kind == .egress && s.inEvacuation (zoneOf d))
      | none => false
    | _ => true

/-- The settle time is running (R30). -/
def settleRuns (s : State) (d : DoorId) : Bool :=
  match (s.door d).settleEnds with
  | some t => s.now < t
  | none => false

/-- The reasons other than RAIL that a QUEUED release holds (R30). -/
def otherReasons (s : State) (d : DoorId) (kind : ReleaseKind) : WaitSet :=
  { interlock := interlockHolds s d kind, settle := settleRuns s d,
    sweep := s.underSweep (zoneOf d) && kind != .egress, rail := false }

/-- The re-evaluation of a QUEUED release (R30): a reason other than RAIL takes it off its rail, and when the last of them
clears it is offered to its rail. A changed INTERLOCK is seen by the other door (R31). -/
def evaluateDoor (d : DoorId) (s : State) : State :=
  match (s.door d).state, (s.door d).release with
  | .queued, some r =>
    let w := otherReasons s d r.kind
    let s1 := if w.interlock = r.wait.interlock then s else s.handOnFirst (.reevaluate (zoneOf d))
    if w.other then setWait d w (if r.wait.rail then leaveRail d s1 else s1)
    else if r.wait.rail then s1
    else offerRail d (setWait d w s1)
  | _, _ => s

/-- When a door's release was attached, in ms. -/
def queuedTime (s : State) (d : DoorId) : Nat :=
  match (s.door d).release with
  | some r => r.queuedAt
  | none => 0

/-- The doors of a zone in the order the turn is arbitrated: the earlier queued at first, the outer door when equal (R31). -/
def turnOrder (s : State) (z : Zone) : DoorId × DoorId :=
  if queuedTime s (innerDoor z) < queuedTime s (outerDoor z) then (innerDoor z, outerDoor z)
  else (outerDoor z, innerDoor z)

/-- The re-evaluation of a zone's QUEUED releases (R30, R31). -/
def evaluateZone (z : Zone) (s : State) : State :=
  let t := turnOrder s z
  evaluateDoor t.2 (evaluateDoor t.1 s)

/-- A QUEUED release stands back as one newly attached: off its rail, and without the turn (R31). -/
def standBack (d : DoorId) (s : State) : State :=
  match (s.door d).state, (s.door d).release with
  | .queued, some r => setWait d { r.wait with interlock := true, rail := false } (if r.wait.rail then leaveRail d s else s)
  | _, _ => s

/-- When the zone leaves evacuation its QUEUED releases are re-evaluated as though each were newly attached, in the order of queued at: all
stand back, then each is judged in turn (R31). -/
def evaluateAfterEvacuation (z : Zone) (s : State) : State :=
  let t := turnOrder s z
  evaluateDoor t.2 (evaluateDoor t.1 (standBack t.2 (standBack t.1 s)))

/-! ### Release requests (R29, R36, R47) -/

/-- How a release request is answered (R29). -/
inductive RequestTest where
  | taken
  | notSecured
  | policy
  deriving DecidableEq, Repr

/-- The tests of a release request, in order (R29). -/
def releaseTest (s : State) (d : DoorId) (kind : ReleaseKind) : RequestTest :=
  if (s.door d).state ≠ .secured then .notSecured
  else if kind ≠ .egress ∧ s.egressOnly (zoneOf d) then .policy
  else .taken

/-- An egress request reaching a zone under sweep ends the sweep (R47). -/
def abandonSweep (z : Zone) (s : State) : State :=
  if s.underSweep z then ((s.setUnderSweep z false).handOnFirst (.reevaluate z)).handOn (.sweepAbandoned z) else s

/-- Attaches a release whose request passed its tests, and evaluates it (R29). -/
def attachRelease (d : DoorId) (kind : ReleaseKind) (origin : Origin) (group : Option Nat) (s : State) : State :=
  let s1 := if kind = .egress then abandonSweep (zoneOf d) s else s
  let r : Release :=
    { kind := kind, origin := origin, group := group, window := none, wait := WaitSet.empty, queuedAt := s1.now,
      opened := false, cut := false, lapsed := false }
  let s2 := s1.setDoor d { s1.door d with state := .queued, release := some { r with wait := otherReasons s1 d kind } }
  let s3 := (doorNotice d none s2).handOnFirst (.reevaluate (zoneOf d))
  evaluateDoor d s3

/-- A window restart (R36) is taken in UNLOCKED, QUEUED and WITHDRAWING. -/
def restartTaken (s : State) (d : DoorId) : Bool :=
  match (s.door d).state with
  | .unlocked | .queued | .withdrawing => true
  | _ => false

/-- A window restart: in UNLOCKED the deadline starts anew (R36). -/
def windowRestart (d : DoorId) (s : State) : State :=
  let x := s.door d
  if x.state = .unlocked then
    s.setDoor d { x with release := x.release.map fun q => { q with window := some (s.now + s.windowMs) } }
  else s

/-- A group set is taken by an attached release that carries no group and has not been opened (R36). -/
def groupSet (d : DoorId) (g : Nat) (s : State) : State :=
  let x := s.door d
  match x.release with
  | some r =>
    if r.group.isNone && !r.opened then doorNotice d none (s.setDoor d { x with release := some { r with group := some g } })
    else s
  | none => s

/-! ### Entries to states -/

/-- Gives THROW and starts the bolt timer afresh: the door enters THROWING (R33, R35, R36, R42, R44). A release that has been
OPEN is handed on to the passage unit (R51, R71). The window deadline ends with the window, at this entry (DESIGN CHOICE, log entry 32). -/
def enterThrowing (d : DoorId) (s : State) : State :=
  let x := s.door d
  let s1 := s.setDoor d
    { x with state := .throwing, boltTimer := some (s.now + s.boltMs d), heldOpen := none,
             release := x.release.map fun q => { q with window := none } }
  let s2 := ((doorNotice d none s1).giveDoorCmd d .throwBolt).handOnFirst (.reevaluate (zoneOf d))
  match x.release with
  | some r => if r.opened then s2.handOn (.threw d r.group) else s2
  | none => s2

/-- The door enters OPEN; an attached release is marked opened and its window deadline dropped (R33, R34). `ended` is the outcome of a
release that ended in the same change, which its one notice carries (R51). -/
def enterOpen (d : DoorId) (ended : Option ReleaseEnd) (s : State) : State :=
  let x := s.door d
  let r := x.release.map fun q => { q with window := none, opened := true }
  (doorNotice d ended
    (s.setDoor d { x with state := .opened, release := r, boltTimer := none, heldOpen := heldOpenTimer s r })).handOnFirst
      (.reevaluate (zoneOf d))

/-- The door enters FAULT (R40): a release still attached ends ABANDONED, relock on close is cleared, DOOR_FAULT is raised unless
present, and THROW is given. `ended` is the outcome of a release that ended before it in the same change (R51). -/
def enterFault (d : DoorId) (ended : Option ReleaseEnd) (s : State) : State :=
  let outcome := if (s.door d).release.isSome then some ReleaseEnd.abandoned else ended
  let s1 := detachRelease d .abandoned false s
  let s2 := s1.setDoor d { s1.door d with state := .fault, relock := false, boltTimer := none, heldOpen := none }
  let s3 :=
    if s2.alarmPresent .doorFault (some (zoneOf d)) (.door d) then s2
    else raiseAlarm .doorFault (some (zoneOf d)) (.door d) s2
  ((doorNotice d outcome s3).giveDoorCmd d .throwBolt).handOnFirst (.reevaluate (zoneOf d))

/-- The travel is judged against the zone's travel limit (R33). -/
def judgeTravel (d : DoorId) (travel : Nat) (s : State) : State :=
  let x := s.door d
  if (s.cfg (zoneOf d)).travelLimit < travel then
    raiseAlarm .lockDegraded (some (zoneOf d)) (.door d)
      (if x.degraded then s else doorNotice d none (s.setDoor d { x with degraded := true }))
  else
    endAlarm .lockDegraded (some (zoneOf d)) (.door d)
      (if x.degraded then doorNotice d none (s.setDoor d { x with degraded := false }) else s)

/-- The door enters SECURED behind its bolt (R37): secured at and settle time start, the marks and conditions end, a release ends
COMPLETE or LAPSED, and the other door is re-evaluated. -/
def enterSecured (d : DoorId) (s : State) : State :=
  let z := zoneOf d
  let outcome := (s.door d).release.map fun r => if r.lapsed then ReleaseEnd.lapsed else ReleaseEnd.complete
  let s1 := match outcome with
    | some o => detachRelease d o false s
    | none => s
  let s2 := s1.setDoor d
    { s1.door d with state := .secured, securedAt := some s1.uptime, settleEnds := some (s1.now + Config.settleMs),
                     relock := false, forced := false, boltTimer := none, heldOpen := none }
  let s3 := endAlarm .doorHeld (some z) (.door d) (endAlarm .doorFault (some z) (.door d) (endAlarm .doorForced (some z) (.door d) s2))
  ((doorNotice d outcome s3).handOnFirst (.reevaluate z)).handOn (.secured d)

/-! ### Reports (R33 to R42) -/

/-- R39 applies to a door entering OPEN or THROWING on a cause other than its own release. -/
def faultInstead (s : State) (d : DoorId) : Bool :=
  !s.inEvacuation (zoneOf d) && (s.door (otherDoor d)).state.moving

/-- A forced contact: the alarm and the reason of R34 and R39. -/
def forcedEffects (d : DoorId) (s : State) : State :=
  addReason (zoneOf d) .countMismatch
    (raiseAlarm .doorForced (some (zoneOf d)) (.door d) (s.setDoor d { s.door d with forced := true }))

/-- The outcome of a waiting release that a door's forcing or fault cancels, when one is attached (R34, R40). -/
def cancelledIfAny (x : Door) : Option ReleaseEnd := x.release.map fun _ => .cancelled

/-- A door forced from SECURED or QUEUED (R34, R39). -/
def forceOpen (d : DoorId) (s : State) : State :=
  let ended := cancelledIfAny (s.door d)
  let s1 := forcedEffects d (detachRelease d .cancelled false s)
  if faultInstead s1 d then enterFault d ended s1 else enterOpen d ended s1

/-- A CONTACT open report (R33, R34); in WITHDRAWING the bolt is taken as withdrawn, without a stored travel. -/
def contactOpen (d : DoorId) (s0 : State) : State :=
  let s := s0.setDoor d { s0.door d with contact := .opened }
  match (s.door d).state with
  | .unlocked | .throwing => enterOpen d none s
  | .withdrawing => enterOpen d none (s.setDoor d { s.door d with bolt := .withdrawn })
  | .secured | .queued => forceOpen d s
  | .unverified =>
    let s1 := s.setDoor d { s.door d with forced := false }
    if faultInstead s1 d then enterFault d none s1 else enterOpen d none s1
  | .opened => s
  | .fault => if (s.door d).forced then s else doorNotice d none (forcedEffects d s)

/-- Whether a closing of an OPEN door throws its bolt (R35). -/
def closesToThrow (x : Door) : Bool :=
  match x.release with
  | some r => r.kind != .hold || x.relock
  | none => true

/-- A CONTACT closed report (R35, R38, R40). -/
def contactClosed (d : DoorId) (s0 : State) : State :=
  let s := endAlarm .doorHeld (some (zoneOf d)) (.door d) (s0.setDoor d { s0.door d with contact := .closed })
  let x := s.door d
  match x.state with
  | .opened =>
    if closesToThrow x then enterThrowing d s
    else (doorNotice d none (s.setDoor d { x with state := .unlocked, heldOpen := none })).handOnFirst (.reevaluate (zoneOf d))
  | .fault => s.giveDoorCmd d .throwBolt
  | _ => s

/-- The bolt was reported withdrawn in WITHDRAWING (R33). -/
def boltArrived (d : DoorId) (s : State) : State :=
  let x := s.door d
  match x.release with
  | some r =>
    if r.cut then enterThrowing d s
    else
      let w := if r.kind = .hold then none else some (s.now + s.windowMs)
      (doorNotice d none
        (s.setDoor d { x with state := .unlocked, boltTimer := none, release := some { r with window := w } })).handOnFirst
          (.reevaluate (zoneOf d))
  | none => enterThrowing d s

/-- A BOLT withdrawn report the part did not command, in SECURED or QUEUED (R40). -/
def boltStray (d : DoorId) (s : State) : State :=
  enterFault d (cancelledIfAny (s.door d)) (detachRelease d .cancelled false s)

/-- A BOLT report (R27, R33, R37, R40). Every travel reported is stored and judged, whatever the door's state (R27, R51, R109), before what
the report does to the state (DEDUCED, log entry 42). -/
def boltReport (d : DoorId) (withdrawn : Bool) (travel : Nat) (s0 : State) : State :=
  let s := judgeTravel d travel
    (s0.setDoor d { s0.door d with bolt := if withdrawn then .withdrawn else .thrown, travel := travel })
  match (s.door d).state, withdrawn with
  | .withdrawing, true => boltArrived d s
  | .secured, true | .queued, true => boltStray d s
  | .throwing, false | .fault, false => if (s.door d).contact = .closed then enterSecured d s else s
  | _, _ => s

/-- A STATUS record at a door (R40, R42); its travel is stored and judged first, as that of a BOLT report is (R27, R42, R51, R109;
DEDUCED, log entry 42). -/
def statusReport (d : DoorId) (open_ withdrawn : Bool) (travel : Nat) (s0 : State) : State :=
  let s := judgeTravel d travel
    (s0.setDoor d
      { s0.door d with contact := if open_ then .opened else .closed, bolt := if withdrawn then .withdrawn else .thrown,
                       travel := travel })
  match (s.door d).state with
  | .unverified =>
    if !open_ && !withdrawn then enterSecured d s
    else
      let s1 := s.setDoor d { s.door d with forced := false }
      if faultInstead s1 d then enterFault d none s1
      else if open_ then enterOpen d none s1
      else enterThrowing d s1
  | .fault => if !open_ && !withdrawn then enterSecured d s else s
  | _ => s

/-- The door's station has gone OFFLINE (R41): the contact and bolt become UNKNOWN whatever state the door left. -/
def stationLost (d : DoorId) (s : State) : State :=
  let x := s.door d
  let unverify (outcome : Option ReleaseEnd) (t : State) : State :=
    (doorNotice d outcome
      (t.setDoor d { t.door d with state := .unverified, contact := .unknown, bolt := .unknown, boltTimer := none,
                                   heldOpen := none })).handOnFirst (.reevaluate (zoneOf d))
  match x.state with
  | .withdrawing | .unlocked | .opened | .throwing =>
    addReason (zoneOf d) .stationLost
      (unverify (if x.release.isSome then some .abandoned else none) (detachRelease d .abandoned true s))
  | .queued => unverify (some .cancelled) (detachRelease d .cancelled true s)
  | .secured | .fault => unverify none s
  | .unverified => s.setDoor d { x with contact := .unknown, bolt := .unknown }

/-! ### Cutting short and sweeps (R44, R47) -/

/-- Cuts short a door's non-egress release (R44); a HOLD release is first converted to PASSAGE with relock on close set. -/
def cutShort (d : DoorId) (s0 : State) : State :=
  match (s0.door d).release with
  | some r =>
    if r.kind = .egress then s0
    else
      let x0 := s0.door d
      let s :=
        if r.kind = .hold then
          s0.setDoor d
            { x0 with relock := true, release := some { r with kind := .passage },
                      heldOpen := if x0.state = .opened then heldOpenTimer s0 (some { r with kind := .passage }) else x0.heldOpen }
        else s0
      let x := s.door d
      match x.state with
      | .queued => endQueued d .cancelled s
      | .withdrawing => s.setDoor d { x with release := x.release.map fun q => { q with cut := true } }
      | .unlocked => enterThrowing d s
      | .opened => s.setDoor d { x with relock := true }
      | _ => s
  | none => s0

/-- The zone's door policy has become EGRESS_ONLY: both doors are cut short (R43, R44), the outer first (DESIGN CHOICE, log entry 58). -/
def cutZone (z : Zone) (s : State) : State := cutShort (innerDoor z) (cutShort (outerDoor z) s)

/-- The door unit takes a sweep's start claim only with both doors SECURED (R47). -/
def sweepDoorsSecured (s : State) (z : Zone) : Bool :=
  (s.door (outerDoor z)).state == .secured && (s.door (innerDoor z)).state == .secured

/-- The sweep's end claim at the door unit: SWEEP leaves the zone's releases (R47). -/
def endDoorSweep (z : Zone) (s : State) : State := (s.setUnderSweep z false).handOnFirst (.reevaluate z)

/-! ### Rail room (R50) -/

/-- While the rail has room and its queue is not empty, the head begins its withdrawal (R50); at most four can begin at once. -/
def startHeads (r : Rail) : Nat → State → State
  | 0, s => s
  | k + 1, s =>
    match (s.rail r).queue with
    | d :: _ => if s.railHasRoom r then startHeads r k (beginWithdrawal d s) else s
    | [] => s

end Sys2Proof.Machine
end

