-- ==== Sys2Proof/Machine/Sweep.lean ====
section
/-! DEFINITION. The sweep unit: sweepability and deferral (R152), making a sweep (R153, R154), reconciliation (R155), results (R156, R157),
the SWEEP_RESULT notice (R159) and the sweep of every zone (R160). -/
namespace Sys2Proof.Machine

/-- A zone is sweepable, leaving aside the last condition of R152. -/
def sweepableAside (s : State) (z : Zone) : Bool :=
  sweepDoorsSecured s z
    && (match (s.suppRec z).state with
        | .normal | .alert | .isolated => true
        | _ => false)
    && s.stationOnline (outerDoor z) && s.stationOnline (innerDoor z)

/-- No sweep is in progress on another zone, and no sweep-all list stands that does not begin with this zone (R152). -/
def sweepFree (s : State) (z : Zone) : Bool :=
  (match s.sweep.inProgress with
    | some r => r.zone == z
    | none => true)
    && match s.sweep.allList with
      | some l => l.head? == some z
      | none => true

/-- A zone is sweepable (R152). -/
def sweepable (s : State) (z : Zone) : Bool := sweepableAside s z && sweepFree s z

/-- The SWEEP_RESULT notice: of a sweep that ended, or of a deferral (R159). -/
def noticeSweep (z : Zone) (result : Option SweepOutcome) (kind : SweepKind) (made : Option SweepRec) (s : State) : State :=
  s.dueNotice (.sweep z result kind made)

/-- Writes a zone's deferral count. -/
def setDeferrals (z : Zone) (n : Nat) (s : State) : State := s.setZone z { s.zone z with deferrals := n }

/-- The deferral count increments, and SWEEP_OVERDUE is raised when it is then 3 (R152, R157). -/
def bumpDeferral (z : Zone) (s : State) : State :=
  let n := min ((s.zone z).deferrals + 1) Config.deferralLimit
  let s1 := setDeferrals z n s
  if n = Config.deferralLimit then raiseAlarm .sweepOverdue (some z) .none s1 else s1

/-- A zone found not sweepable is deferred (R152). -/
def deferSweep (z : Zone) (kind : SweepKind) (s : State) : State := noticeSweep z none kind none (bumpDeferral z s)

/-- A sweep of a zone is started (R153); a refused start claim of the door unit defers it. -/
def startSweep (z : Zone) (kind : SweepKind) (s : State) : State :=
  if sweepDoorsSecured s z then
    let s1 := sweepStartClaim z (s.setUnderSweep z true)
    let s2 : State := { s1 with sweep.inProgress := some ⟨z, kind, none, none, none⟩ }
    (s2.giveDoorCmd (outerDoor z) .statusQuery).giveDoorCmd (innerDoor z) .statusQuery
  else deferSweep z kind s

/-- The sweep-all goes on to its next zone: a zone out of service or excluded is skipped, one not sweepable deferred, and the
next taken in the same step (R160). -/
def sweepNext : List Zone → State → State
  | [], s => { s with sweep.allList := none }
  | z :: rest, s =>
    let s1 : State := { s with sweep.allList := if rest = [] then none else some rest }
    if !(s.zone z).inService || s.excludedFlag z then sweepNext rest s1
    else if sweepable s z then
      let s2 := startSweep z .sweepAll s1
      if s2.sweep.inProgress.isSome then s2 else sweepNext rest s2
    else sweepNext rest (deferSweep z .sweepAll s1)

/-- The records of a zone that a sweep's PASS ends (R109, R157). -/
def endedByPass (z : Zone) (r : AlarmRec) : Bool :=
  r.zone == some z && (r.kind == .tailgate || r.kind == .sweepMismatch || r.kind == .sweepOverdue)

/-- What a result does to the deferral count and the alarms (R157). -/
def applyResult (z : Zone) (result : SweepOutcome) (s : State) : State :=
  match result with
  | .pass => endAlarms (endedByPass z) (setDeferrals z 0 s)
  | .mismatch => raiseAlarm .sweepMismatch (some z) .none (setDeferrals z 0 s)
  | .degraded => setDeferrals z 0 s
  | .noReply | .abandoned => if (s.zone z).inService then bumpDeferral z s else s
  | .none => s

/-- A sweep ends with a result (R157); for ABANDONED the door unit has already cleared its mark (R47). -/
def endSweep (r : SweepRec) (result : SweepOutcome) (s : State) : State :=
  let s1 := applyResult r.zone result (sweepResultClaim r.zone result s)
  let s2 := noticeSweep r.zone (some result) r.kind (some r) { s1 with sweep.inProgress := none }
  let s3 := if result = .abandoned then s2 else endDoorSweep r.zone s2
  match s3.sweep.allList with
  | some l => sweepNext l s3
  | none => s3

/-- The result of a sweep with both replies received (R156). -/
def sweepVerdict (s : State) (z : Zone) (o i : SweepReply) : SweepOutcome :=
  if o.contactOpen || i.contactOpen || o.boltWithdrawn || i.boltWithdrawn || !sweepDoorsSecured s z
      || !(s.zone z).headcountValid || (s.zone z).headcount != s.countAt z .inner then .mismatch
  else if (s.cfg z).travelLimit < o.travel || (s.cfg z).travelLimit < i.travel then .degraded
  else .pass

/-- A STATUS reply from a station of the zone in progress (R154). -/
def sweepReply (d : DoorId) (x : SweepReply) (found : Option Reconciled) (s : State) : State :=
  match s.sweep.inProgress with
  | some r =>
    if r.zone = zoneOf d then
      let r1 := if isOuter d then { r with outer := some x } else { r with inner := some x, reconciled := found }
      let s1 : State := { s with sweep.inProgress := some r1 }
      match r1.outer, r1.inner with
      | some o, some i => endSweep r1 (sweepVerdict s1 r1.zone o i) s1
      | _, _ => s1
    else s
  | none => s

/-- The failure of a station whose reply is awaited: the sweep ends NO_REPLY (R154). The failure of a station whose reply is RECEIVED
changes nothing, though the other's be awaited (DESIGN CHOICE, log entry 54). -/
def sweepFail (d : DoorId) (s : State) : State :=
  match s.sweep.inProgress with
  | some r =>
    if r.zone = zoneOf d ∧ (if isOuter d then r.outer else r.inner).isNone then endSweep r .noReply s else s
  | none => s

/-- The door unit abandoned the zone's sweep (R47, R157). -/
def sweepAbandonedOf (z : Zone) (s : State) : State :=
  match s.sweep.inProgress with
  | some r => if r.zone = z then endSweep r .abandoned s else s
  | none => s

/-- Missing crossings: the tally delta less the beams received, modulo 65,536 (R155). -/
def missingCrossings (tally base received : Nat) : Nat := (tally + 65536 - base % 65536 + 65536 - received % 65536) % 65536

/-- What a reconciliation finds (R155). -/
def reconcileFinding (s : State) (z : Zone) (tallyIn tallyOut : Nat) : Reconciled :=
  match (s.slot (loopOf z) (slotOf (innerDoor z))).tallies with
  | none => .baseline
  | some (baseIn, baseOut) =>
    let i := missingCrossings tallyIn baseIn (nth s.sweep.beamsIn z)
    let o := missingCrossings tallyOut baseOut (nth s.sweep.beamsOut z)
    if i ≤ 255 ∧ o ≤ 255 then .missing i o else .discontinuous

/-- The reply's tallies become the baseline and the beams received return to 0 and 0 (R155). -/
def setBaseline (z : Zone) (tallyIn tallyOut : Nat) (s : State) : State :=
  let l := loopOf z
  let a := slotOf (innerDoor z)
  let s1 := s.setSlot l a { s.slot l a with tallies := some (tallyIn, tallyOut) }
  { s1 with sweep.beamsIn := put s1.sweep.beamsIn z 0, sweep.beamsOut := put s1.sweep.beamsOut z 0 }

/-- The reconciliation of an inner station's STATUS reply, and the overflow check of R173 when `overflow` is set (R155, R173). -/
def reconcile (z : Zone) (tallyIn tallyOut : Nat) (overflow : Bool) (s : State) : State :=
  let s1 :=
    match reconcileFinding s z tallyIn tallyOut with
    | .baseline => s
    | .missing i o =>
      let t := adjustHeadcount z i o s
      if overflow && (i != 0 || o != 0) then addReason z .countMismatch t else t
    | .discontinuous => addReason z .countMismatch s
  setBaseline z tallyIn tallyOut s1

/-- A BEAM report counts toward the zone's beams received (R150). -/
def countBeam (z : Zone) (inward : Bool) (s : State) : State :=
  if inward then { s with sweep.beamsIn := put s.sweep.beamsIn z ((nth s.sweep.beamsIn z + 1) % 65536) }
  else { s with sweep.beamsOut := put s.sweep.beamsOut z ((nth s.sweep.beamsOut z + 1) % 65536) }

/-- The zones IN_SERVICE and not excluded, in zone order (R160). -/
def sweepAllZones (s : State) : List Zone := allZones.filter fun z => (s.zone z).inService && !s.excludedFlag z

/-- The taken SWEEP_ALL: the list is built, the pointer set to Z0 and the first zone taken (R160). -/
def startSweepAll (s : State) : State :=
  let l := sweepAllZones s
  sweepNext l { s with sweep.allList := if l = [] then none else some l, sweep.pointer := 0 }

/-- The expiry of the interval timer (R151). -/
def intervalExpiry (s : State) : State :=
  let z := s.sweep.pointer
  let s1 : State := { s with sweep.pointer := z + 1, sweep.timer := some (s.now + s.partCfg.sweepInterval * 1000) }
  if !(s.zone z).inService || s.excludedFlag z then s1
  else if (s.sweep.inProgress.map (·.zone)) = some z then s1
  else if sweepable s z then startSweep z .scheduled s1
  else deferSweep z .scheduled s1

end Sys2Proof.Machine
end

