-- ==== Sys2Proof/Machine/Passage.lean ====
section
/-! DEFINITION. The passage unit: the credential cache (R62 to R64), verdict queries (R57 to R61), admission (R65 to R69), passage groups
and the cycles of the two doors (R70 to R73, R76, R77), exit and request to exit (R74, R75), beam crossings (R78) and evacuation (R79,
R80). -/
namespace Sys2Proof.Machine

/-! ### The credential cache (R62) -/

/-- The cache without expired entries: an expired badge is decided as absent (R62). -/
def State.liveCache (s : State) : List CacheEntry := s.passage.cache.filter fun e => s.uptime < e.expiresAt

/-- Writes the cache. -/
def State.setCache (s : State) (c : List CacheEntry) : State := { s with passage.cache := c }

/-- A load: it replaces its badge's entry, or takes a place, the least recently used entry's when 64 are held (R62). -/
def cacheInsert (e : CacheEntry) (s : State) : State :=
  let rest := s.liveCache.filter fun x => x.badge != e.badge
  let kept := if rest.length < Config.cacheCap then rest else rest.drop 1
  s.setCache (kept ++ [e])

/-- Removes a badge's entry (R59, R63). -/
def cacheRemove (b : Badge) (s : State) : State := s.setCache (s.passage.cache.filter fun x => x.badge != b)

/-! ### Groups (R70) -/

/-- The number after a group number, wrapping from 255 to 1. -/
def groupAfter (g : Nat) : Nat := if g < 255 then g + 1 else 1

/-- The next number not in use, within the given number of tries. -/
def freeGroup (s : State) : Nat → Nat → Nat
  | 0, g => g
  | k + 1, g => if s.groupInUse g then freeGroup s k (groupAfter g) else g

/-- A new group's number (R70): at most 96 entries and 32 releases carry numbers, so one is free. -/
def newGroup (s : State) : Nat := freeGroup s 255 (groupAfter s.passage.lastGroup)

/-- The number chosen is remembered (R70). -/
def chooseGroup (g : Nat) (s : State) : State := { s with passage.lastGroup := g }

/-- A slot whose number is free is emptied (R70). -/
def liveGroup (s : State) (g : Option Nat) : Option Nat :=
  match g with
  | some n => if s.groupInUse n then some n else none
  | none => none

/-- Empties the zone's slots whose numbers are free, and clears pending outer egress of a zone with no VESTIBULE entry (R70, R77). -/
def pruneZone (z : Zone) (s : State) : State :=
  let x := s.zonePassage z
  s.setZonePassage z
    { x with entryGroup := liveGroup s x.entryGroup, vestibuleGroup := liveGroup s x.vestibuleGroup,
             exitGroup := liveGroup s x.exitGroup, pendingOuter := x.pendingOuter && s.countAt z .vestibule != 0 }

/-- Empties a slot if it holds the number. -/
def dropGroup (slot : Option Nat) (g : Option Nat) : Option Nat := if slot = g then none else slot

/-! ### Presentations (R54, R57) -/

/-- A corridor presentation, kept by its query or decided at once. -/
structure Presentation where
  door : DoorId
  badge : Badge
  terminator : Terminator
  digits : List Nat
  query : Option Byte
  joinFlag : Bool
  deriving DecidableEq, Repr

/-- The presentation a query holds (R58). -/
def Query.presentation (q : Query) : Presentation := ⟨q.door, q.badge, q.terminator, q.digits, some q.id, q.joinFlag⟩

/-- A presentation carries a PIN (R54). -/
def Presentation.carriesPin (p : Presentation) : Bool :=
  p.terminator != .none && 4 ≤ p.digits.length && p.digits.length ≤ 8

/-- What a verdict or a cache entry grants. -/
structure Grant where
  role : Role
  rights : Half
  afterHours : Bool
  deriving DecidableEq, Repr

/-- The refusal of a presentation: the corridor reader is sent DENIED (R66). -/
def denyPresentation (p : Presentation) (source : Source) (reason : PassageReason) (s : State) : State :=
  noticePassage p.door p.badge source .denied reason none [] p.query (s.indicate (zoneOf p.door) .corridor .denied)

/-- A presentation that must be made again: the corridor reader is sent WAIT (R57, R65). -/
def waitPresentation (p : Presentation) (source : Source) (s : State) : State :=
  noticePassage p.door p.badge source .wait .doorBusy none [] p.query (s.indicate (zoneOf p.door) .corridor .wait)

/-- The outer door carries a joinable release, with the entry group it rides (R65). -/
def joinableGroup (s : State) (z : Zone) : Option Nat :=
  let d := s.door (outerDoor z)
  match d.release, (s.zonePassage z).entryGroup with
  | some r, some g =>
    if r.kind = .passage ∧ r.origin = .reader ∧ r.group = some g ∧ !r.opened
        ∧ (d.state = .queued ∨ d.state = .withdrawing ∨ d.state = .unlocked) then some g
    else none
  | _, _ => none

/-- The dispositions of a grant at its door (R65). -/
inductive Disposition where
  | join (group : Nat)
  | new
  | unavailable
  | wait
  deriving DecidableEq, Repr

/-- The door's disposition, the first case that holds (R65). -/
def disposition (s : State) (p : Presentation) : Disposition :=
  match joinableGroup s (zoneOf p.door), (s.door p.door).state with
  | some g, _ => .join g
  | none, st =>
    if p.joinFlag then .wait
    else match st with
      | .secured => .new
      | .fault | .unverified => .unavailable
      | _ => .wait

/-- The oldest ESCORT of the zone at INNER or VESTIBULE (R66). -/
def zoneEscort (s : State) (z : Zone) : Option Entry :=
  (s.roster z).find? fun e => e.role == .escort && e.location != .admitted

/-- The oldest ESCORT of a group (R66). -/
def groupEscort (s : State) (z : Zone) (g : Nat) : Option Entry :=
  (s.roster z).find? fun e => e.role == .escort && e.group == some g

/-- The badge of the escort a grant finds (R66). -/
def escortFor (s : State) (z : Zone) (disp : Disposition) : Option Badge :=
  match disp with
  | .join g => ((groupEscort s z g).orElse fun _ => zoneEscort s z).bind (·.badge)
  | _ => (zoneEscort s z).bind (·.badge)

/-- The hours check (R66). -/
def hoursCheck (s : State) (p : Presentation) (source : Source) (g : Grant) : Option PassageReason :=
  if s.hours.state = .dayHours then none
  else if g.role = .contractor ∨ !g.afterHours then some .hours
  else if (s.cfg (zoneOf p.door)).pinAfterHours then
    if source = .cache then some .pinUnchecked else if p.carriesPin then none else some .pinRequired
  else none

/-- The checks of R66, the first failure deciding. -/
def admissionCheck (s : State) (p : Presentation) (source : Source) (g : Grant) (disp : Disposition) : Option PassageReason :=
  let z := zoneOf p.door
  if !g.rights.getLsbD z.val then some .noRights
  else if (s.entryOfBadge p.badge).isSome then some .passback
  else match hoursCheck s p source g with
    | some r => some r
    | none => if g.role.needsEscort && (escortFor s z disp).isNone then some .escortRequired else none

/-- The member a grant makes (R68). -/
def grantMember (s : State) (p : Presentation) (g : Grant) (disp : Disposition) : Member :=
  { badge := p.badge, role := g.role, escort := escortFor s (zoneOf p.door) disp, duress := p.terminator == .duress }

/-- The reason a refused admit group claim gives (R68). -/
def refusalReason : Status → PassageReason
  | .rosterFull => .rosterFull
  | .rosterConflict => .rosterConflict
  | _ => .wrongState

/-- The numbers of the zone's entries that carry these members' badges, in list order (R68). -/
def memberEntries (s : State) (z : Zone) (ms : List Member) : List EntryNo :=
  ((s.roster z).filter fun e => ms.any fun m => e.badge == some m.badge).map (·.number)

/-- A NEW group, its claim taken: the release is requested, and refused the entries are removed again (R68). -/
def admitNew (p : Presentation) (source : Source) (ms : List Member) (g : Nat) (s : State) : State :=
  let z := zoneOf p.door
  let s1 := admitGroup z g ms s
  if releaseTest s1 p.door .passage = .taken then
    let s2 := s1.setZonePassage z { s1.zonePassage z with entryGroup := some g }
    noticePassage p.door p.badge source .admitted .none (some g) (memberEntries s1 z ms) p.query
      ((attachRelease p.door .passage .reader (some g) s2).indicate z .corridor .granted)
  else denyPresentation p source .doorUnavailable (removeEntries z (fun e => e.group == some g) s1)

/-- A JOIN, its claim taken: the window is restarted, and refused the joining entry is removed again (R68). -/
def admitJoin (p : Presentation) (source : Source) (ms : List Member) (g : Nat) (s : State) : State :=
  let z := zoneOf p.door
  let s1 := admitGroup z g ms s
  if restartTaken s1 p.door then
    noticePassage p.door p.badge source .joined .none (some g) (memberEntries s1 z ms) p.query
      ((windowRestart p.door s1).indicate z .corridor .granted)
  else waitPresentation p source (removeEntries z (fun e => ms.any fun m => e.badge == some m.badge) s1)

/-- An admit group claim on a presentation: refused, the presentation is denied with the claim's reason (R68). -/
def admitClaim (p : Presentation) (source : Source) (ms : List Member) (taken : State → State) (s : State) : State :=
  match admitTest s (zoneOf p.door) ms with
  | some st => denyPresentation p source (refusalReason st) s
  | none => taken s

/-- Admission (R68): a NEW group takes its number first, and a refused claim frees it, so that the next is the number after it (R70). -/
def admitMembers (p : Presentation) (source : Source) (ms : List Member) (disp : Disposition) (s : State) : State :=
  match disp with
  | .join g => admitClaim p source ms (admitJoin p source ms g) s
  | _ => admitClaim p source ms (admitNew p source ms (newGroup s)) (chooseGroup (newGroup s) s)

/-- The two-person rule (R67, R96). A COMPLETE answer under disposition JOIN (a release still joinable, its group's entries removed) joins
both members to the entry group (DESIGN CHOICE, log entry 35). A repeat of the first badge leaves the held mark of duress as the first
presentation made it, though the repeat be under duress (DESIGN CHOICE, log entry 47). -/
def pairRule (p : Presentation) (source : Source) (g : Grant) (disp : Disposition) (s : State) : State :=
  let z := zoneOf p.door
  let wait (t : State) : State :=
    noticePassage p.door p.badge source .pairWait .none none [] p.query (t.indicate z .corridor .waitPair)
  match (s.zone z).pairing with
  | none =>
    let s1 := s.setZone z
      { s.zone z with pairing := some ⟨p.badge, p.door, s.now + s.partCfg.pairingWindow * 1000⟩ }
    wait (s1.setZonePassage z { s1.zonePassage z with held := some ⟨g.role, p.terminator == .duress⟩ })
  | some first =>
    if first.badge = p.badge then wait s
    else
      let held := ((s.zonePassage z).held).getD ⟨.staff, false⟩
      let firstMember : Member := { badge := first.badge, role := held.role, escort := none, duress := held.duress }
      admitMembers p source [firstMember, grantMember s p g disp] disp (dropPairing z s)

/-- A grant is decided: disposition, checks, the two-person rule and admission (R65 to R68). -/
def decideGrant (p : Presentation) (source : Source) (g : Grant) (s : State) : State :=
  match disposition s p with
  | .wait => waitPresentation p source s
  | .unavailable => denyPresentation p source .doorUnavailable s
  | disp =>
    match admissionCheck s p source g disp with
    | some reason => denyPresentation p source reason s
    | none =>
      if s.hours.state = .afterHours ∧ s.roster (zoneOf p.door) = [] then pairRule p source g disp s
      else admitMembers p source [grantMember s p g disp] disp s

/-- A decision from the credential cache; finding the entry counts as a use (R62, R64). -/
def cacheDecide (p : Presentation) (s : State) : State :=
  match s.liveCache.find? fun e => e.badge == p.badge with
  | none => denyPresentation p .cache .noCredential s
  | some e => decideGrant p .cache ⟨e.role, e.rights, e.afterHours⟩ (cacheInsert e s)

/-! ### Queries (R57 to R61) -/

/-- The next id not held by an outstanding query (R58). -/
def freeQueryId (held : List Byte) : Nat → Byte → Byte
  | 0, q => q
  | k + 1, q => if held.contains q then freeQueryId held k (q + 1) else q

/-- A query leaves the table (R58). -/
def endQuery (id : Byte) (s : State) : State :=
  { s with passage.queries := (s.passage.queries.filter fun q => q.id != id) }

/-- The digits of a PIN, two to a byte, first digit in the high half, in four bytes (R209, R211); the places beyond the last digit
hold 0 (DESIGN CHOICE, log entry 44). -/
def digitBytes (digits : List Nat) : List Byte :=
  let d (i : Nat) : Nat := digits.getD i 0
  [BitVec.ofNat 8 (d 0 * 16 + d 1), BitVec.ofNat 8 (d 2 * 16 + d 3), BitVec.ofNat 8 (d 4 * 16 + d 5),
   BitVec.ofNat 8 (d 6 * 16 + d 7)]

/-- Whether the access port's notice queue has a place (R57). -/
def accessRoom (s : State) : Bool := s.ports.access.notices.length < Config.noticeCap

/-- Raises a query, or decides from the cache when its notice was not placed (R57, R58). The id of a notice that was not placed does not
count as the last issued: the next query takes it (DESIGN CHOICE, log entry 48). -/
def raiseQuery (p : Presentation) (s : State) : State :=
  let z := zoneOf p.door
  let id := freeQueryId (s.passage.queries.map (·.id)) 256 s.passage.nextQuery
  let join := (joinableGroup s z).isSome
  let s1 := s.notify .verdictRequest (some z) (.door p.door)
    ([id] ++ byte4 p.badge.toNat ++ byte1 p.terminator.code ++ byte1 p.digits.length ++ digitBytes p.digits
      ++ byte1 s.hours.state.code ++ byteFlag join)
  if accessRoom s then
    let q : Query := ⟨id, p.door, p.badge, p.terminator, p.digits, s.now, join⟩
    ({ s1 with passage.queries := s1.passage.queries ++ [q], passage.nextQuery := id + 1 }).indicate z .corridor .wait
  else cacheDecide p s1

/-- The pattern that fits the cause of a refusal for policy (R57, R72). -/
def indicatePolicy (z : Zone) (side : Side) (s : State) : State :=
  if s.inEvacuation z then s
  else if s.lockdownFlag z then s.indicate z side .lockdown
  else s.indicate z side .denied

/-- An entry presentation at a corridor reader, its duress mark taken (R57, R69). The notice of one that policy refuses carries outcome
DENIED and source NONE (DESIGN CHOICE, log entry 53), that of one that waits source NONE (DESIGN CHOICE, log entry 13). -/
def entryPresentation (p : Presentation) (s0 : State) : State :=
  let z := zoneOf p.door
  let s := if p.terminator = .duress then raiseAlarm .duress (some z) (.badge p.badge) s0 else s0
  if s.egressOnly z then
    noticePassage p.door p.badge .none .denied .policy none [] none (indicatePolicy z .corridor s)
  else if s.passage.queries.any fun q => q.door == p.door then waitPresentation p .none s
  else if Config.queryCap ≤ s.passage.queries.length ∨ s.passage.silent then cacheDecide p s
  else raiseQuery p s

/-- The zone's outstanding query ends SUPERSEDED (R61); its notice carries outcome DENIED and source NONE (DESIGN CHOICE, log entry 33). -/
def supersede (z : Zone) (sendDenied : Bool) (s : State) : State :=
  match s.passage.queries.find? fun q => q.door == outerDoor z with
  | some q =>
    let s1 := noticePassage q.door q.badge .none .denied .superseded none [] (some q.id) (endQuery q.id s)
    if sendDenied then s1.indicate z .corridor .denied else s1
  | none => s

/-- A port reset of the access port: every outstanding query ends and is decided from the cache (R61), the oldest raised first, each
against the state the one before it left (DESIGN CHOICE, log entry 43). -/
def endAllQueries (s : State) : State :=
  s.passage.queries.foldl (fun t q => cacheDecide q.presentation (endQuery q.id t)) s

/-- A query times out: the count rises toward SILENT and the presentation is decided from the cache (R60). -/
def timeoutQuery (q : Query) (s : State) : State :=
  let n := min (s.passage.timeouts + 1) 3
  cacheDecide q.presentation
    { endQuery q.id s with passage.timeouts := n, passage.silent := s.passage.silent || n == 3 }

/-! ### Cycles (R71 to R77) -/

/-- Requests the outer egress while pending outer egress is set (R77). -/
def requestOuterEgress (z : Zone) (s : State) : State :=
  let x := s.zonePassage z
  if x.pendingOuter && s.countAt z .vestibule != 0 && releaseTest s (outerDoor z) .egress == .taken then
    attachRelease (outerDoor z) .egress .cycle none (s.setZonePassage z { x with pendingOuter := false })
  else s

/-- Sets pending outer egress, which makes its request (R77). -/
def setPendingOuter (z : Zone) (s : State) : State :=
  requestOuterEgress z (s.setZonePassage z { s.zonePassage z with pendingOuter := true })

/-- Offers the vestibule group its inner cycle (R72); where the zone has no vestibule group any more, pending inner cycle is cleared
(DESIGN CHOICE, log entry 36). -/
def offerCycle (z : Zone) (s0 : State) : State :=
  let s := pruneZone z s0
  let x := s.zonePassage z
  match x.vestibuleGroup with
  | none => s.setZonePassage z { x with pendingInner := false }
  | some g =>
    if (s.door (innerDoor z)).group = some g then s
    else match releaseTest s (innerDoor z) .passage with
      | .taken => attachRelease (innerDoor z) .passage .cycle (some g) (s.setZonePassage z { x with pendingInner := false })
      | .notSecured => s.setZonePassage z { x with pendingInner := true }
      | .policy => s.setZonePassage z { x with pendingInner := false }

/-- The outer door throws behind the entry group: its ADMITTED entries stand in the vestibule (R71). -/
def groupEnters (z : Zone) (g : Nat) (s : State) : State :=
  match (s.zonePassage z).vestibuleGroup with
  | some v =>
    let s1 := relocate z (fun e => e.group == some g) .admitted .vestibule (.become v) 96 s
    s1.setZonePassage z { s1.zonePassage z with entryGroup := dropGroup (s1.zonePassage z).entryGroup (some g) }
  | none =>
    let s1 := relocate z (fun e => e.group == some g) .admitted .vestibule .keep 96 s
    s1.setZonePassage z
      { s1.zonePassage z with entryGroup := dropGroup (s1.zonePassage z).entryGroup (some g), vestibuleGroup := some g }

/-- Removes a group's ADMITTED entries (R36, R71). -/
def removeAdmitted (z : Zone) (g : Nat) (s : State) : State :=
  removeEntries z (fun e => e.group == some g && e.location == .admitted) s

/-- Empties the entry group slot of a number. -/
def dropEntryGroup (z : Zone) (g : Option Nat) (s : State) : State :=
  s.setZonePassage z { s.zonePassage z with entryGroup := dropGroup (s.zonePassage z).entryGroup g }

/-- The end of the outer door's release of an entry group (R71). -/
def outerPassageEnds (z : Zone) (g : Nat) (opened : Bool) (outcome : ReleaseEnd) (lost : Bool) (s : State) : State :=
  if opened then
    match outcome with
    | .complete => offerCycle z s
    | .abandoned =>
      if (s.zonePassage z).entryGroup = some g then
        dropEntryGroup z (some g) (if lost then s else addReason z .countMismatch s)
      else s
    | _ => s
  else
    let s1 := if outcome = .abandoned ∧ lost then s else removeAdmitted z g s
    let s2 := dropEntryGroup z (some g) s1
    if outcome = .waitExpired ∨ outcome = .railBusy then s2.indicate z .corridor .waitExpired else s2

/-- An outer EGRESS release ends after being opened: the vestibule is empty (R77). -/
def outerEgressEnds (z : Zone) (s : State) : State :=
  let s1 := removeEntries z (fun e => e.location == .vestibule) s
  s1.setZonePassage z
    { s1.zonePassage z with vestibuleGroup := none, pendingInner := false, pendingOuter := false }

/-- One crossing beyond a group's size: an anonymous entry at INNER and TAILGATE (R73). -/
def tailgates (z : Zone) : Nat → State → State
  | 0, s => s
  | k + 1, s => tailgates z k (raiseAlarm .tailgate (some z) (.door (innerDoor z)) (createAnonymous z .inner s))

/-- The inbound cycle is settled (R73). -/
def settleInbound (z : Zone) (g : Nat) (s : State) : State :=
  let size := ((s.roster z).filter fun e => e.group == some g && e.location == .vestibule).length
  let x := s.zonePassage z
  let s1 := relocate z (fun e => e.group == some g) .vestibule .inner .remove 96 s
  let s2 := s1.setZonePassage z { s1.zonePassage z with vestibuleGroup := dropGroup (s1.zonePassage z).vestibuleGroup (some g) }
  if x.tallyIn < size + x.tallyOut then addReason z .countMismatch s2
  else tailgates z (x.tallyIn - x.tallyOut - size) s2

/-- The outbound cycle's moves of R76: up to `n` entries of the exit group, then the oldest anonymous INNER entries, these by one relocate
claim with limit r (DESIGN CHOICE, log entry 31). -/
def moveOutbound (z : Zone) (g : Option Nat) (n : Nat) (s : State) : State :=
  let held := match g with
    | some k => ((s.roster z).filter fun e => e.group == some k && e.location == .inner).length
    | none => 0
  let moved := min n held
  let inGroup (e : Entry) : Bool := g.isSome && e.group == g
  let s1 := if moved = 0 then s else relocate z inGroup .inner .vestibule .remove moved s
  let s2 := if moved < held then
      amendGroup z (fun e => inGroup e && e.location == .inner) none (addReason z .countMismatch s1)
    else s1
  let rest := n - moved
  let anon := ((s2.roster z).filter fun e => !e.badged && e.location == .inner).length
  let s3 := if rest = 0 then s2 else relocate z (fun e => !e.badged) .inner .vestibule .keep rest s2
  let s4 := if anon < rest then addReason z .unbadgedExit s3 else s3
  if moved + min rest anon = 0 then s4 else setPendingOuter z s4

/-- The outbound cycle is settled (R76). -/
def settleOutbound (z : Zone) (g : Option Nat) (s : State) : State :=
  let x := s.zonePassage z
  let s1 :=
    if x.tallyOut < x.tallyIn then addReason z .countMismatch s
    else moveOutbound z g (x.tallyOut - x.tallyIn) s
  s1.setZonePassage z { s1.zonePassage z with exitGroup := none }

/-- Crossings counted under a release that ends without being opened (R78). -/
def unopenedCrossings (z : Zone) (s : State) : State :=
  let x := s.zonePassage z
  if x.tallyIn = 0 ∧ x.tallyOut = 0 then s
  else addReason z .countMismatch (s.setZonePassage z { x with tallyIn := 0, tallyOut := 0 })

/-- The end of an inner PASSAGE release of a group (R72, R73). -/
def innerPassageEnds (z : Zone) (g : Nat) (opened : Bool) (outcome : ReleaseEnd) (s : State) : State :=
  if opened then
    if outcome = .abandoned then
      addReason z .countMismatch (s.setZonePassage z { s.zonePassage z with tallyIn := 0, tallyOut := 0 })
    else settleInbound z g s
  else
    let s1 := s.setZonePassage z { s.zonePassage z with pendingInner := false }
    if outcome = .waitExpired ∨ outcome = .railBusy then s1.indicate z .vestibule .waitExpired else s1

/-- The end of an inner EGRESS release (R76). -/
def innerEgressEnds (z : Zone) (g : Option Nat) (opened : Bool) (outcome : ReleaseEnd) (s : State) : State :=
  if opened then
    if outcome = .abandoned then
      let s1 := amendGroup z (fun e => g.isSome && e.group == g && e.location == .inner) none (addReason z .countMismatch s)
      s1.setZonePassage z { s1.zonePassage z with exitGroup := none, tallyIn := 0, tallyOut := 0 }
    else settleOutbound z g s
  else s

/-- The outcomes of a release whose withdrawal had begun; the others end a release in QUEUED, under which nothing was counted (R28). -/
def ReleaseEnd.moved : ReleaseEnd → Bool
  | .complete | .lapsed | .abandoned => true
  | .waitExpired | .railBusy | .cancelled => false

/-- A release's end is handed to the passage unit (R51, R71 to R77). -/
def releaseEnded (d : DoorId) (r : Release) (outcome : ReleaseEnd) (lost : Bool) (s : State) : State :=
  let z := zoneOf d
  if isOuter d then
    match r.kind, r.group with
    | .passage, some g => outerPassageEnds z g r.opened outcome lost s
    | .egress, _ => if r.opened then outerEgressEnds z s else s
    | _, _ => s
  else
    let s0 := if !r.opened && r.origin != .master && outcome.moved then unopenedCrossings z s else s
    match r.kind, r.group with
    | .passage, some g => innerPassageEnds z g r.opened outcome s0
    | .egress, g => innerEgressEnds z g r.opened outcome s0
    | _, _ => s0

/-- A door has entered SECURED: the passage unit's standing requests are made again (R72, R77). -/
def doorSecured (d : DoorId) (s : State) : State :=
  let z := zoneOf d
  if isOuter d then requestOuterEgress z s
  else if (s.zonePassage z).pendingInner then offerCycle z s else s

/-! ### The other readers and request to exit (R72, R74, R75) -/

/-- A presentation of no badge (R54): DENIED, with R69's alarm from a corridor reader. Its notice carries outcome DENIED and source NONE
(DESIGN CHOICE, log entry 53). -/
def noBadge (d : DoorId) (side : Side) (badge : Badge) (t : Terminator) (s0 : State) : State :=
  let z := zoneOf d
  let s := if t = .duress ∧ side = .corridor then raiseAlarm .duress (some z) .none s0 else s0
  noticePassage d badge .none .denied .badBadge none [] none (s.indicate z side .denied)

/-- The zone's entry of a badge at a location. -/
def entryHere (s : State) (z : Zone) (b : Badge) (loc : Location) : Option Entry :=
  (s.roster z).find? fun e => e.badge == some b && e.location == loc

/-- The number a slot holds, or a new one (R72, R74). -/
def slotOrNew (s : State) (slot : Option Nat) : Nat := slot.getD (newGroup s)

/-- A number newly chosen is remembered; one a slot held is not a choice (R70). -/
def noteChoice (slot : Option Nat) (g : Nat) (s : State) : State := if slot.isSome then s else chooseGroup g s

/-- A decision of the vestibule or vault reader (R68): pattern and notice, which carries no group and no entries, since none is created. -/
def tellReader (d : DoorId) (side : Side) (b : Badge) (pattern : Pattern) (outcome : Decided) (reason : PassageReason)
    (s : State) : State :=
  noticePassage d b .none outcome reason none [] none (s.indicate (zoneOf d) side pattern)

/-- A badge at the vestibule reader (R72). Its notice carries ADMITTED for a new release and JOINED for a window restart (DESIGN CHOICE, log
entry 34), and DENIED with reason POLICY where policy refuses the release (DESIGN CHOICE, log entry 53). -/
def vestibuleReader (z : Zone) (b : Badge) (s : State) : State :=
  let d := innerDoor z
  let x := s.door d
  let slot := liveGroup s (s.zonePassage z).vestibuleGroup
  match entryHere s z b .vestibule with
  | none => tellReader d .vestibule b .denied .denied .none s
  | some e =>
    if x.unopened .passage && x.group.isSome && x.group == slot then
      if restartTaken s d then
        let s1 := amendGroup z (fun y => y.number == e.number) slot s
        tellReader d .vestibule b .granted .joined .none (windowRestart d s1)
      else tellReader d .vestibule b .wait .wait .doorBusy s
    else if x.state = .secured then
      let g := slotOrNew s slot
      let s1 := amendGroup z (fun y => y.number == e.number) (some g) (noteChoice slot g s)
      let s2 := s1.setZonePassage z { s1.zonePassage z with vestibuleGroup := some g }
      if releaseTest s2 d .passage = .taken then
        tellReader d .vestibule b .granted .admitted .none (attachRelease d .passage .reader (some g) s2)
      else noticePassage d b .none .denied .policy none [] none (indicatePolicy z .vestibule s2)
    else tellReader d .vestibule b .wait .wait .doorBusy s

/-- A request-to-exit press at a door: an egress release of no group, or a window restart (R75). -/
def rexPress (d : DoorId) (s : State) : State :=
  let x := s.door d
  if x.state = .secured then attachRelease d .egress .rex none s
  else if x.unopened .egress then windowRestart d s
  else s

/-- A badge at the vault reader with intent PASS (R74), its notice as the vestibule reader's (DESIGN CHOICE, log entry 34). -/
def vaultReader (z : Zone) (b : Badge) (s : State) : State :=
  let d := innerDoor z
  let x := s.door d
  match entryHere s z b .inner with
  | none => rexPress d s
  | some e =>
    if x.unopened .egress then
      if restartTaken s d then
        let slot := x.group.orElse fun _ => liveGroup s (s.zonePassage z).exitGroup
        let g := slotOrNew s slot
        let s1 := amendGroup z (fun y => y.number == e.number) (some g) (noteChoice slot g s)
        let s2 := groupSet d g (s1.setZonePassage z { s1.zonePassage z with exitGroup := some g })
        tellReader d .vault b .granted .joined .none (windowRestart d s2)
      else tellReader d .vault b .wait .wait .doorBusy s
    else if x.state = .secured then
      let g := newGroup s
      let s1 := amendGroup z (fun y => y.number == e.number) (some g) (chooseGroup g s)
      let s2 := s1.setZonePassage z { s1.zonePassage z with exitGroup := some g }
      tellReader d .vault b .granted .admitted .none (attachRelease d .egress .reader (some g) s2)
    else tellReader d .vault b .wait .wait .doorBusy s

/-! ### Beam crossings (R78) -/

/-- A crossing under an inner release of origin MASTER is settled at once (R78). -/
def settleMaster (z : Zone) (inward : Bool) (s : State) : State :=
  if inward then createAnonymous z .inner s
  else if (s.roster z).any fun e => !e.badged && e.location == .inner then
    relocate z (fun e => !e.badged) .inner .vestibule .keep 1 s
  else addReason z .unbadgedExit s

/-- A crossing joins the cycle tally; a count at 255 stays there (R78). -/
def tallyCrossing (z : Zone) (inward : Bool) (s : State) : State :=
  let x := s.zonePassage z
  s.setZonePassage z
    (if inward then { x with tallyIn := min (x.tallyIn + 1) 255 } else { x with tallyOut := min (x.tallyOut + 1) 255 })

/-- A BEAM report of a zone's inner station (R78). -/
def beamCrossing (z : Zone) (inward : Bool) (s0 : State) : State :=
  let s := if inward then adjustHeadcount z 1 0 s0 else adjustHeadcount z 0 1 s0
  let x := s.door (innerDoor z)
  match x.state.moving, x.release with
  | true, some r => if r.origin = .master then settleMaster z inward s else tallyCrossing z inward s
  | _, _ => addReason z .countMismatch s

/-! ### Evacuation (R79, R80) -/

/-- A VESTIBULE entry that is not in a group whose inner release has opened (R79). -/
def strandedInVestibule (s : State) (z : Zone) : Bool :=
  (s.roster z).any fun e =>
    e.location == .vestibule
      && match (s.door (innerDoor z)).release with
        | some r => !(r.opened && r.group.isSome && r.group == e.group)
        | none => true

/-- The zone has entered evacuation: the passage unit's part (R79). -/
def evacuationPassage (z : Zone) (s : State) : State :=
  let s1 := removeEntries z (fun e => e.location == .admitted) s
  let s2 := s1.setZonePassage z { s1.zonePassage z with entryGroup := none, pendingInner := false }
  let s3 := dropPairing z (supersede z false s2)
  let s4 := if strandedInVestibule s3 z then setPendingOuter z s3 else s3
  ((s4.indicate z .corridor .evacuate).indicate z .vestibule .evacuate).indicate z .vault .evacuate

/-- The zone has left evacuation: the patterns of R80. -/
def evacuationOver (z : Zone) (s : State) : State :=
  let p := if s.lockdownFlag z then Pattern.lockdown else Pattern.idle
  ((s.indicate z .vault .idle).indicate z .corridor p).indicate z .vestibule p

end Sys2Proof.Machine
end

