-- ==== Sys2Proof/Machine/Hours.lean ====
section
/-! DEFINITION. The hours unit: the week clock (R82, R83), the hours state and its transitions (R86 to R88), overdue deadlines (R91),
check-in (R92) and the end of overdue conditions by RESOLVE_ZONE (R93). -/
namespace Sys2Proof.Machine

/-- The day of the week, 0 for Monday (R82). -/
def dayOf (clock : Nat) : Nat := clock / 86400

/-- The minute of the day (R82). -/
def minuteOf (clock : Nat) : Nat := clock % 86400 / 60

/-- A window contains the moment (R84). -/
def Window.holds (w : Window) (clock : Nat) : Bool :=
  w.days.getLsbD (dayOf clock) && w.start ≤ minuteOf clock && minuteOf clock < w.stop

/-- The hours state the clock and the schedule give (R86). -/
def hoursNow (s : State) : HoursState :=
  if s.hours.clockValid && s.hours.schedule.any fun w => w.holds s.hours.clock then .dayHours else .afterHours

/-- The causes of HOURS_CHANGED (R86). -/
inductive HoursCause where
  | minute
  | setClock
  | writeSchedule
  deriving DecidableEq, Repr

/-- R86. -/
def HoursCause.code : HoursCause → Nat
  | .minute => 0
  | .setClock => 1
  | .writeSchedule => 2

/-- The amend of one zone on the change to AFTER_HOURS (R87). -/
def enterAfterHoursZone (z : Zone) (s : State) : State :=
  if s.badgedCount z = 0 then s
  else
    let alone := s.loneOccupant z
    evalWarning z false
      (amendEntries z
        (fun e =>
          if e.badged then
            if alone then { e with lone := true, deadline := some (s.uptime + s.halfInterval z) }
            else { e with deadline := some (s.uptime + s.fullInterval z) }
          else e) s)

/-- The amend of one zone on the change to DAY_HOURS, with its pairing record and its warning mark (R88). -/
def enterDayHoursZone (z : Zone) (s : State) : State :=
  evalWarning z false
    (clearPairing z .pairCleared true (amendEntries z (fun e => { e with deadline := none, lone := false }) s))

/-- The hours state takes the state evaluated, with the transition of R87 or R88, the zones in order Z0 to Z15 (DESIGN CHOICE, log
entry 38). -/
def takeHours (h : HoursState) (s : State) : State :=
  let s1 : State := { s with hours.state := h }
  match h with
  | .afterHours => allZones.foldl (fun t z => enterAfterHoursZone z t) s1
  | .dayHours => endAlarms (fun r => r.kind == .loneWorkerOverdue) (allZones.foldl (fun t z => enterDayHoursZone z t) s1)

/-- The evaluation of the hours state with its HOURS_CHANGED notice (R86). -/
def evaluateHours (cause : HoursCause) (s : State) : State :=
  let h := hoursNow s
  if h = s.hours.state then s
  else (takeHours h s).notify .hoursChanged none .none (byte1 h.code ++ byte4 s.hours.clock ++ byte1 cause.code)

/-- The clock takes a value and becomes valid (R83). -/
def setClock (v : Nat) (s : State) : State :=
  evaluateHours .setClock { s with hours.clock := v, hours.clockValid := true }

/-- The interval a deadline is assigned with: half for an entry that carries LONE (R92, R93). -/
def intervalFor (s : State) (z : Zone) (e : Entry) : Nat := if e.lone then s.halfInterval z else s.fullInterval z

/-- An entry's deadline expires (R91). -/
def deadlineExpires (e : Entry) (b : Badge) (s : State) : State :=
  let s1 := amendEntries e.zone (fun x => if x.number = e.number then { x with deadline := none } else x) s
  evalWarning e.zone false (raiseAlarm .loneWorkerOverdue (some e.zone) (.badge b) s1)

/-- A check-in at a zone's vault reader (R92). -/
def checkIn (z : Zone) (b : Badge) (s : State) : State :=
  match entryHere s z b .inner with
  | none => s.indicate z .vault .denied
  | some e =>
    let counted (x : Entry) : Entry := { x with checkIns := min (x.checkIns + 1) 255 }
    if s.hours.state = .afterHours then
      let s1 := amendEntries z
        (fun x => if x.number = e.number then { counted x with deadline := some (s.uptime + intervalFor s z x) } else x) s
      evalWarning z true ((endAlarm .loneWorkerOverdue (some z) (.badge b) s1).indicate z .vault .granted)
    else (amendEntries z (fun x => if x.number = e.number then counted x else x) s).indicate z .vault .granted

/-- RESOLVE_ZONE hands the hours unit the ends of overdue conditions: of the badges named, and zone-wide when `whole` (R93, R114). The fresh
deadlines of one zone are one amend claim (DESIGN CHOICE, log entry 37). -/
def overdueResolved (z : Zone) (badges : List Badge) (whole : Bool) (s : State) : State :=
  if s.hours.state = .afterHours then
    evalWarning z false
      (amendEntries z
        (fun e =>
          if e.badged && e.deadline.isNone && (whole || badges.any fun b => e.badge == some b) then
            { e with deadline := some (s.uptime + intervalFor s z e) }
          else e) s)
  else s

end Sys2Proof.Machine
end

