-- ==== Sys2Proof/Machine/HandOn.lean ====
section
/-! DEFINITION. The end of a step: the hand-ons among units are taken (R19, R51, R125, log entry 5), the hold reasons and outputs follow
their sources (R126, R145), and the notices due are given (R188, log entries 6 and 39). -/
namespace Sys2Proof.Machine

/-- What the receiving units do with one hand-on. -/
def takeHandOn (h : HandOn) (s : State) : State :=
  match h with
  | .reevaluate z => evaluateZone z s
  | .certainty z c => takeCertainty z c s
  | .evacuationEntered z => evacuationPassage z ((cutZone z s).handOnFirst (.reevaluate z))
  | .evacuationLeft z => evacuationOver z (evaluateAfterEvacuation z s)
  | .threw d g =>
    match g with
    | some k => if isOuter d then groupEnters (zoneOf d) k s else s
    | none => s
  | .lapse d g =>
    match g with
    | some k => if isOuter d then removeAdmitted (zoneOf d) k s else s
    | none => s
  | .released d r outcome lost => releaseEnded d r outcome lost s
  | .secured d => doorSecured d s
  | .sweepAbandoned z => sweepAbandonedOf z s

/-- Takes hand-ons from the front until none is left, at most `fuel` of them (log entry 5). -/
def settle : Nat → State → State
  | 0, s => s
  | k + 1, s =>
    match s.work.handOns with
    | [] => s
    | h :: rest => settle k (takeHandOn h { s with work.handOns := rest })

/-- The end of an event within a step, one report of a reply: what it hands on is taken, and then the distress counts and abort inputs it
left (R117, R126, log entry 5). -/
def endEvent (s : State) : State := allZones.foldl (fun t z => refreshHolds z t) (settle Config.handOnBound s)

/-- One zone's hold reasons, state and outputs, and its group slots, at the end of a step. -/
def closeZone (s : State) (z : Zone) : State := driveOutputs z (refreshHolds z (pruneZone z s))

/-- Every zone at the end of a step. -/
def closeZones (s : State) : State := allZones.foldl closeZone s

/-- The work of the step is done; hand-ons beyond the bound stay for the next step (log entry 5). -/
def clearWork (s : State) : State := { s with work := { Work.idle with handOns := s.work.handOns } }

/-- Restores the queue of commands: no meaning changes it. -/
def keepPending (before s : State) : State := { s with pending := before.pending }

/-- The notices due are put in an order. -/
def orderDue (order : List DueNotice → List DueNotice) (s : State) : State := { s with work.due := order s.work.due }

/-- The end of a step that began in `before`, its notices in the order given. -/
def finishWith (order : List DueNotice → List DueNotice) (before s : State) : State :=
  keepPending before (clearWork (giveDueNotices (orderDue order (closeZones (settle Config.handOnBound s)))))

/-- The end of a step that an event made: its notices stand in the order of their changes (R107, R188). -/
def finish (before s : State) : State := finishWith id before s

/-- The end of a step that a request made: the records it ended come in the order they had in the queue before it (R107). -/
def finishRequest (before s : State) : State := finishWith (endingsInQueueOrder before.alarms.queue) before s

end Sys2Proof.Machine
end

