-- ==== Sys2Proof/Machine/Loops.lean ====
section
/-! DEFINITION. The loop controllers: the frames of R211, the exchange (R168), replies and reports (R171 to R174), stations going ONLINE
and OFFLINE (R166, R167), breaks (R164), reconfigured slots (R165) and STATION_CHANGED (R175). -/
namespace Sys2Proof.Machine

/-! ### Frames (R211) -/

/-- The command byte and the data of a frame from the part; absent for POLL. -/
def cmdBytes : Option CmdBody → List Byte
  | none => [0]
  | some .withdraw => [1]
  | some .throwBolt => [2]
  | some (.indicate side pattern) => [3] ++ byte1 side.code ++ byte1 pattern.code
  | some .statusQuery => [4]

/-- The address byte, the command byte and the data of an exchange's frame. -/
def Exchange.bytes (x : Exchange) : List Byte := byte1 (x.slot.val + 1) ++ cmdBytes x.body

/-- The frame of an exchange as its characters: the address marked by its ninth bit, then command, data and CRC-16 unmarked (R211). -/
def Exchange.frame (x : Exchange) : List LoopChar :=
  match Exchange.bytes x ++ crc16Bytes (Exchange.bytes x) with
  | address :: rest => ⟨true, address⟩ :: rest.map fun b => ⟨false, b⟩
  | [] => []

/-- A station's reports (R172). -/
inductive Report where
  | badge (side : Side) (badge : Badge) (checkIn : Bool) (terminator : Terminator) (digits : List Nat)
  | rex (side : Side)
  | contact (opened : Bool)
  | bolt (withdrawn : Bool) (travel : Nat)
  | beam (inward : Bool)
  | tamper (on : Bool)
  deriving DecidableEq, Repr

/-- A STATUS record (R173). -/
structure StatusRecord where
  contactOpen : Bool
  boltWithdrawn : Bool
  travel : Nat
  tallyIn : Nat
  tallyOut : Nat
  tamperOn : Bool
  deriving DecidableEq, Repr

/-- A reply that fits the layout; a report or STATUS record with a field out of range is absent (R172, log entry 15). -/
structure StationFrame where
  address : Nat
  reports : List (Option Report)
  overflow : Bool
  marked : Bool
  status : Option StatusRecord
  deriving DecidableEq, Repr

/-- A two-byte value, high byte first (R207). -/
def half (hi lo : Byte) : Nat := hi.toNat * 256 + lo.toNat

/-- A side byte. -/
def sideOf (b : Byte) : Option Side :=
  match b.toNat with
  | 0 => some .corridor
  | 1 => some .vestibule
  | 2 => some .vault
  | _ => none

/-- A byte of two values, 0 or 1. -/
def bitOf (b : Byte) : Option Bool :=
  match b.toNat with
  | 0 => some false
  | 1 => some true
  | _ => none

/-- The low two bits of the byte of intent and terminator. -/
def terminatorOf (n : Nat) : Option Terminator :=
  match n % 4 with
  | 0 => some .none
  | 1 => some .enter
  | 2 => some .duress
  | _ => none

/-- The digits of a PIN from their bytes. -/
def digitsOf (count : Nat) (bytes : List Byte) : List Nat :=
  (bytes.flatMap fun b => [b.toNat / 16, b.toNat % 16]).take count

/-- The four bytes of a badge. -/
def badgeOf (b0 b1 b2 b3 : Byte) : Badge := b0 ++ b1 ++ b2 ++ b3

/-- A BADGE report's data (R172, R211). Bit 3 of the count's byte and the digits beyond the count are ignored (DESIGN CHOICE, log
entry 15). -/
def readBadge (side b0 b1 b2 b3 mode : Byte) (pin : List Byte) : Option Report :=
  let count := mode.toNat / 16
  let digits := digitsOf count pin
  match sideOf side, terminatorOf mode.toNat with
  | some x, some t =>
    if count ≤ 8 ∧ digits.all (· ≤ 9) then some (.badge x (badgeOf b0 b1 b2 b3) (mode.getLsbD 2) t digits) else none
  | _, _ => none

/-- The bytes that follow each kind byte; absent for a kind above 5, whose length is not known (R211; log entry 63). -/
def reportLength (kind : Byte) : Option Nat :=
  match kind.toNat with
  | 0 => some 10
  | 1 | 2 | 4 | 5 => some 1
  | 3 => some 3
  | _ => none

/-- A report from its kind and data, absent with a field out of range. -/
def readReport (kind : Byte) (data : List Byte) : Option Report :=
  match kind.toNat, data with
  | 0, [side, b0, b1, b2, b3, mode, p0, p1, p2, p3] => readBadge side b0 b1 b2 b3 mode [p0, p1, p2, p3]
  | 1, [side] => (sideOf side).map .rex
  | 2, [x] => (bitOf x).map .contact
  | 3, [x, hi, lo] => (bitOf x).map fun w => .bolt w (half hi lo)
  | 4, [x] => (bitOf x).map fun out => .beam (!out)
  | 5, [x] => (bitOf x).map .tamper
  | _, _ => none

/-- The reports of a reply and the bytes after them; absent when the bytes do not match (R211). A kind above 5 makes the reply not fit its
frame, as R211 says, where R172 has a report of an unknown kind discarded and the reply stay valid (DESIGN CHOICE, log entry 63). -/
def readReports : Nat → List Byte → Option (List (Option Report) × List Byte)
  | 0, bytes => some ([], bytes)
  | _ + 1, [] => none
  | n + 1, kind :: rest =>
    match reportLength kind with
    | some k =>
      if k ≤ rest.length then
        match readReports n (rest.drop k) with
        | some (rs, tail) => some (readReport kind (rest.take k) :: rs, tail)
        | none => none
      else none
    | none => none

/-- A STATUS record from its nine bytes. -/
def readStatus : List Byte → Option StatusRecord
  | [c, b, t1, t0, i1, i0, o1, o0, x] =>
    match bitOf c, bitOf b, bitOf x with
    | some contact, some bolt, some tamper => some ⟨contact, bolt, half t1 t0, half i1 i0, half o1 o0, tamper⟩
    | _, _, _ => none
  | _ => none

/-- A reply less its CRC (R211). -/
def readFrame : List Byte → Option StationFrame
  | address :: header :: rest =>
    let count := header.toNat % 8
    let marked := header.getLsbD 6
    if 4 < count then none
    else match readReports count rest with
      | some (rs, tail) =>
        if tail.length = (if marked then 9 else 0) then
          some ⟨address.toNat, rs, header.getLsbD 7, marked, if marked then readStatus tail else none⟩
        else none
      | none => none
  | _ => none

/-- A valid reply to the exchange: CRC, address and form (R171). -/
def validReply (x : Exchange) (bytes : List Byte) : Option StationFrame :=
  let body := bytes.take (bytes.length - 2)
  if 4 ≤ bytes.length ∧ bytes.drop (bytes.length - 2) = crc16Bytes body then
    match readFrame body with
    | some f => if f.address = x.slot.val + 1 ∧ f.marked = (x.body == some .statusQuery) then some f else none
    | none => none
  else none

/-! ### STATION_CHANGED (R175) -/

/-- The notice for a slot (R175). -/
def noticeSlot (l : LoopId) (a : SlotId) (cause : SlotCause) (s : State) : State := s.dueNotice (.slot l a cause)

/-- The notice for a loop, with the slots whose online state changed (R175). -/
def noticeLoop (l : LoopId) (restored : Bool) (changed : List SlotId) (s : State) : State :=
  s.dueNotice (.loop l restored changed)

/-! ### Stations ONLINE and OFFLINE (R165 to R167) -/

/-- Discards a station's queued commands (R169). -/
def discardCmds (l : LoopId) (a : SlotId) (s : State) : State :=
  s.setLoop l { s.loop l with queue := ((s.loop l).queue.filter fun c => c.slot != a) }

/-- An ONLINE slot goes OFFLINE at its third miss (R166); its overflow query mark is cleared (R173). -/
def goOffline (l : LoopId) (a : SlotId) (s : State) : State :=
  let s1 := discardCmds l a (s.setSlot l a { s.slot l a with online := .offline, overflowQuery := false })
  let s2 := sweepFail (doorAt l a) (stationLost (doorAt l a) s1)
  noticeSlot l a .offline (raiseAlarm .stationOffline (some (zoneAt l a)) (.station l a) s2)

/-- An OFFLINE slot has stayed silent for three misses (R166). -/
def staySilent (l : LoopId) (a : SlotId) (s : State) : State :=
  noticeSlot l a .silent (raiseAlarm .stationOffline (some (zoneAt l a)) (.station l a) s)

/-- A miss: the count increments, staying at 3, and the slot acts when it reaches 3 (R166). -/
def countMiss (l : LoopId) (a : SlotId) (s : State) : State :=
  let x := s.slot l a
  let s1 := s.setSlot l a { x with missed := min (x.missed + 1) 3 }
  if x.missed = 2 then
    match x.online with
    | .online => goOffline l a s1
    | .offline => staySilent l a s1
    | .absent => s1
  else s1

/-- The exchange in progress ends: no frame is in flight (R168). -/
def endExchange (l : LoopId) (s : State) : State :=
  let x := s.loop l
  s.setLoop l { x with exchange := none, sent := [], queue := (x.queue.map fun c => { c with inFlight := false }) }

/-- An exchange missed: no valid reply came (R166). -/
def missExchange (l : LoopId) (x : Exchange) (s : State) : State := countMiss l x.slot (endExchange l s)

/-- A command that drew a valid reply leaves the queue (R168). -/
def completeCmd (l : LoopId) (s : State) : State :=
  s.setLoop l { s.loop l with queue := ((s.loop l).queue.filter fun c => !c.inFlight) }

/-- A valid reply from an OFFLINE station (R167). -/
def goOnline (l : LoopId) (a : SlotId) (s : State) : State :=
  let s1 := (s.setSlot l a { s.slot l a with online := .online, missed := 0 }).giveCmd l a .statusQuery
  noticeSlot l a .online (endAlarm .stationOffline (some (zoneAt l a)) (.station l a) s1)

/-! ### Reports (R172 to R174) -/

/-- The tamper field follows a report (R174). -/
def setTamper (l : LoopId) (a : SlotId) (on : Bool) (s : State) : State :=
  let x := s.slot l a
  let t := if on then Tamper.on else Tamper.off
  if x.tamper = t then s
  else
    let s1 := s.setSlot l a { x with tamper := t }
    let s2 :=
      if on then raiseAlarm .tamper (some (zoneAt l a)) (.station l a) s1
      else if x.tamper = .on then endAlarm .tamper (some (zoneAt l a)) (.station l a) s1
      else s1
    noticeSlot l a .tamper s2

/-- A BADGE report from a station and side listed for it (R54, R55, R172). -/
def takeBadge (d : DoorId) (side : Side) (b : Badge) (intent : Bool) (t : Terminator) (digits : List Nat) (s : State) : State :=
  let z := zoneOf d
  if !badgeOk b then noBadge d side b t s
  else match side with
    | .corridor => entryPresentation ⟨d, b, t, digits, none, false⟩ s
    | .vestibule => vestibuleReader z b s
    | .vault => if intent then checkIn z b s else vaultReader z b s

/-- One report, handed to the unit that owns its state; a report not listed for the station is discarded (R172). -/
def takeReport (l : LoopId) (a : SlotId) (r : Report) (s : State) : State :=
  let d := doorAt l a
  match r with
  | .badge side b intent t digits => if isOuter d == (side == .corridor) then takeBadge d side b intent t digits s else s
  | .rex side =>
    if (isOuter d && side == .vestibule) || (!isOuter d && side == .vault) then rexPress d s else s
  | .contact opened => if opened then contactOpen d s else contactClosed d s
  | .bolt withdrawn travel => boltReport d withdrawn travel s
  | .beam inward => if isOuter d then s else beamCrossing (zoneOf d) inward (countBeam (zoneOf d) inward s)
  | .tamper on => setTamper l a on s

/-- The reports one at a time, each handed on before the next (R171). -/
def takeReports (l : LoopId) (a : SlotId) (rs : List (Option Report)) (s : State) : State :=
  rs.foldl
    (fun t r => match r with
      | some x => endEvent (takeReport l a x t)
      | none => t) s

/-- The overflow flag: the mark is set and a STATUS_QUERY queued (R173), though the reply that carries the flag answer one (DESIGN CHOICE,
log entry 55). -/
def takeOverflow (l : LoopId) (a : SlotId) (s : State) : State :=
  (s.setSlot l a { s.slot l a with overflowQuery := true }).giveCmd l a .statusQuery

/-- A STATUS record (R173): to the door unit, to the sweep unit, to the tamper handling. -/
def takeStatus (l : LoopId) (a : SlotId) (r : StatusRecord) (s0 : State) : State :=
  let d := doorAt l a
  let check := (s0.slot l a).overflowQuery
  let s := s0.setSlot l a { s0.slot l a with overflowQuery := false }
  let s1 := settle Config.handOnBound (statusReport d r.contactOpen r.boltWithdrawn r.travel s)
  let found := reconcileFinding s1 (zoneOf d) r.tallyIn r.tallyOut
  let s2 := if isOuter d then s1 else reconcile (zoneOf d) r.tallyIn r.tallyOut check s1
  setTamper l a r.tamperOn (sweepReply d ⟨r.contactOpen, r.boltWithdrawn, r.travel, r.tallyIn, r.tallyOut⟩ (some found) s2)

/-- A valid reply is heard: the command leaves the queue, the exchange ends, and the station's missed count returns to 0, an OFFLINE
station going ONLINE (R166 to R168). A STATUS_QUERY that this reply answers has left the queue before a return ONLINE queues one (DESIGN
CHOICE, log entry 55). -/
def stationHeard (l : LoopId) (a : SlotId) (s : State) : State :=
  let t := endExchange l (completeCmd l s)
  if (t.slot l a).online = .offline then goOnline l a t else t.setSlot l a { t.slot l a with missed := 0 }

/-- A valid reply is taken: the station is heard, then reports, overflow flag and STATUS record in order (R167, R168, R171). -/
def takeReply (l : LoopId) (x : Exchange) (f : StationFrame) (s : State) : State :=
  let a := x.slot
  let s1 := takeReports l a f.reports (stationHeard l a s)
  let s2 := if f.overflow then takeOverflow l a s1 else s1
  match f.status with
  | some r => takeStatus l a r s2
  | none => s2

/-! ### The exchange (R168) -/

/-- The slots in the order of the poll round, after the address last polled (R168). -/
def pollOrder (last : Nat) : List SlotId :=
  (allSlots.filter fun a => last < a.val + 1) ++ allSlots.filter fun a => a.val + 1 ≤ last

/-- The exchange the controller chooses, with whether it is a turn of the poll round (R168). -/
def chooseExchange (x : Loop) : Option (Exchange × Bool) :=
  match x.queue.find? fun c => (nth x.slots c.slot).online == .online with
  | some c => some (⟨c.slot, some c.body⟩, false)
  | none =>
    match (pollOrder x.lastPolled).find? fun a => (nth x.slots a).online != .absent with
    | some a =>
      if (nth x.slots a).online = .offline then some (⟨a, (x.queue.find? fun c => c.slot == a).map (·.body)⟩, true)
      else some (⟨a, none⟩, true)
    | none => none

/-- The command whose frame is sent is marked in flight (R169). -/
def markInFlight (e : Exchange) (c : LoopCmd) : LoopCmd :=
  if c.slot = e.slot ∧ e.body = some c.body then { c with inFlight := true } else c

/-- The exchange begins: its frame is sent (R168, R211). -/
def beginExchange (l : LoopId) (s : State) : State :=
  let x := s.loop l
  match chooseExchange x with
  | some (e, turn) =>
    s.setLoop l
      { x with exchange := some e, sent := Exchange.frame e, queue := x.queue.map (markInFlight e),
               lastPolled := if turn then e.slot.val + 1 else x.lastPolled }
  | none => s

/-! ### Breaks (R164) and reconfigured slots (R165) -/

/-- The slots of a loop that are ONLINE. -/
def onlineSlots (s : State) (l : LoopId) : List SlotId := allSlots.filter fun a => (s.slot l a).online == .online

/-- A slot when its loop is cut (R164). -/
def cutSlot (x : Slot) : Slot :=
  if x.configured then { x with online := .offline, missed := 0, overflowQuery := false } else x

/-- If the sweep unit awaits a station of the loop, it is handed the failure (R164). -/
def sweepFailLoop (l : LoopId) (s : State) : State :=
  match s.sweep.inProgress with
  | some r => if loopOf r.zone = l then sweepFail (innerDoor r.zone) (sweepFail (outerDoor r.zone) s) else s
  | none => s

/-- The loop is cut (R164). An exchange in progress ends with it, and neither its reply nor a miss of it is taken (DESIGN CHOICE, log
entry 62). -/
def cutLoop (l : LoopId) (s : State) : State :=
  let gone := onlineSlots s l
  let x := s.loop l
  let s1 := s.setLoop l { x with state := .cut, queue := [], exchange := none, sent := [], slots := x.slots.map cutSlot }
  let s2 := gone.foldl (fun t a => stationLost (doorAt l a) t) s1
  noticeLoop l false gone (raiseAlarm .loopCut none (.loop l) (sweepFailLoop l s2))

/-- The loop returns to RUNNING (R164). -/
def restoreLoop (l : LoopId) (s : State) : State :=
  noticeLoop l true [] (endAlarm .loopCut none (.loop l) (s.setLoop l { s.loop l with state := .running }))

/-- A committed change of a station configured flag (R165). The conditions of a slot that becomes ABSENT are ended by `endAbsent`; its
overflow query mark is cleared (DESIGN CHOICE, log entry 56). -/
def reconfigureSlot (d : DoorId) (configured : Bool) (s : State) : State :=
  let l := loopOf (zoneOf d)
  let a := slotOf d
  let x := s.slot l a
  if x.configured = configured then s
  else if configured then
    noticeSlot l a .configured (s.setSlot l a { x with configured := true, online := .offline, missed := 0 })
  else
    let s1 := s.setSlot l a
      { x with configured := false, online := .absent, tamper := .unknown, tallies := none, overflowQuery := false }
    let s2 := discardCmds l a s1
    let s3 := if ((s2.loop l).exchange.map (·.slot)) = some a then endExchange l s2 else s2
    noticeSlot l a .absent (sweepFail d (stationLost d s3))

/-- A STATION_OFFLINE or TAMPER record of the station of one of these doors (R165). -/
def ofStations (ds : List DoorId) (r : AlarmRec) : Bool :=
  (r.kind == .stationOffline || r.kind == .tamper)
    && ds.any fun d => r.zone == some (zoneOf d) && r.subject == .station (loopOf (zoneOf d)) (slotOf d)

/-- The conditions of the stations whose slots became ABSENT end, in queue order (R107, R165). -/
def endAbsent (ds : List DoorId) (s : State) : State := endAlarms (ofStations ds) s

end Sys2Proof.Machine
end

