-- ==== Sys2Proof/Machine/Lines.lean ====
section
/-! DEFINITION. The line unit: the filter (R177), qualification (R178, R179), the key chord (R180), LINE_CHANGED and the sounder's cadence
(R145, R181). -/
namespace Sys2Proof.Machine

/-- The fields of LINE_CHANGED that the notice record does not carry (R177); a kind that needs no arming sends armed as 0 (DESIGN CHOICE, log
entry 11). -/
def lineData (s : State) (n : LineId) : List Byte :=
  let x := s.line n
  byte1 (lineKind n).code ++ byte1 (supervisedCode x.supervised) ++ byteFlag x.qualified ++ byteFlag x.armed

/-- LINE_CHANGED for a line (R177). -/
def noticeLine (n : LineId) (s : State) : State := s.notify .lineChanged (lineZone n) (.line n) (lineData s n)

/-- LINE_CHANGED for line 64 with the chord's state (R180). -/
def noticeChord (s : State) : State :=
  s.notify .lineChanged none (.line keyALine)
    (lineData s keyALine ++ byteOption byte6 s.lines.chordDeadline ++ byteFlag s.lines.chordSpent)

/-- Writes the chord, with its notice when it changes (R180): one, though deadline and spent mark change together (DESIGN CHOICE, log
entry 49). -/
def setChord (deadline : Option Nat) (spent : Bool) (s : State) : State :=
  if deadline = s.lines.chordDeadline ∧ spent = s.lines.chordSpent then s
  else noticeChord { s with lines.chordDeadline := deadline, lines.chordSpent := spent }

/-- The hold of each kind, ms (R178). -/
def LineKind.hold : LineKind → Nat
  | .pull => 2000
  | .abort => 500
  | .panic => 200
  | .pressure => 1000
  | .keyA | .keyB => 0

/-- The kinds that must be armed (R178). -/
def LineKind.needsArming : LineKind → Bool
  | .pull | .keyA | .keyB => true
  | .abort | .panic | .pressure => false

/-- A key (R180). -/
def LineKind.isKey : LineKind → Bool
  | .keyA | .keyB => true
  | _ => false

/-- The second key has become active while the chord is not spent (R180). -/
def chordBegins (s : State) : State :=
  if (s.line keyALine).qualified && (s.line keyBLine).qualified && !s.lines.chordSpent && s.lines.chordDeadline.isNone then
    setChord (some (s.now + Config.chordMs)) false s
  else s

/-- What a qualified line is handed to (R179); the suppression unit takes in ABORT at the end of the step (log entry 6). -/
def handQualified (n : LineId) (s : State) : State :=
  match lineKind n, lineZone n with
  | .pull, some z => takePull z s
  | .panic, some z => raiseAlarm .panic (some z) (.line n) s
  | .pressure, some z => takePressure z s
  | .keyA, _ | .keyB, _ => chordBegins s
  | _, _ => s

/-- A line becomes qualified (R178, R179). -/
def qualifyLine (n : LineId) (s : State) : State :=
  handQualified n (s.setLine n { s.line n with qualified := true, holdDeadline := none })

/-- A line taken ACTIVE starts its qualification, or is qualified at once (R178); during start-up nothing qualifies yet (R206, log entry 18)
but an ABORT line taken there from a fault, which R179 keeps active until it is taken NORMAL. -/
def lineActive (n : LineId) (fromFault : Bool) (s : State) : State :=
  let x := s.line n
  let k := lineKind n
  if k.needsArming && !x.armed then s
  else if k == .abort && fromFault then qualifyLine n s
  else if k.isKey then if s.started then qualifyLine n s else s.setLine n { x with holdDeadline := some s.now }
  else s.setLine n { x with holdDeadline := some (s.now + k.hold) }

/-- A key line leaves ACTIVE or is taken NORMAL: the chord breaks, and NORMAL clears the spent mark (R180). -/
def keyLeaves (n : LineId) (level : Level) (s : State) : State :=
  if (lineKind n).isKey && level != .active then
    setChord none (s.lines.chordSpent && level != .normal) s
  else s

/-- The filter takes a level (R177), with one LINE_CHANGED, though the qualified mark change with the supervised state (DESIGN CHOICE, log
entry 49). -/
def takeLevel (n : LineId) (level : Level) (s : State) : State :=
  let x := s.line n
  let fault := lineFaulted (some level)
  let s1 := s.setLine n
    { x with supervised := some level, qualified := x.qualified && level == .active,
             holdDeadline := if level = .active then x.holdDeadline else none,
             armed := x.armed || ((lineKind n).needsArming && level == .normal) }
  let s2 := keyLeaves n level s1
  let s3 :=
    if fault then raiseAlarm .lineFault (lineZone n) (.line n) s2
    else if level = .normal then endAlarm .lineFault (lineZone n) (.line n) s2
    else lineActive n (lineFaulted x.supervised) s2
  noticeLine n s3

/-- The candidate has held its level for the filter time and differs from the supervised state (R177). -/
def levelDue (s : State) (n : LineId) : Bool :=
  let x := s.line n
  x.since + Config.filterMs ≤ s.now && x.supervised != some x.candidate

/-- The candidate changes and the filter time restarts (R177). -/
def setCandidate (n : LineId) (level : Level) (s : State) : State :=
  if (s.line n).candidate = level then s
  else s.setLine n { s.line n with candidate := level, since := s.now }

/-- The sounder is switched to the level its cadence gives (R145, R181). -/
def soundCadence (z : Zone) (s : State) : State := s.setOutput z { s.output z with sounding := cadenceLevel s z }

/-! ### The commands -/

/-- An event that acts when its occasion is present, and else finds nothing to do (log entry 3). -/
def event (occasion : Bool) (effect : State → State) (s : State) : Host.Outcome State Fault Refusal :=
  if occasion then .next (finish s (effect s)) else .next s

/-- LINE_LEVEL_TAKEN (R177). -/
def execLineLevelTaken (n : LineId) (s : State) : Host.Outcome State Fault Refusal :=
  event (levelDue s n) (takeLevel n (s.line n).candidate) s

/-- QUALIFICATION_HOLD_EXPIRY (R178). -/
def execQualificationHoldExpiry (n : LineId) (s : State) : Host.Outcome State Fault Refusal :=
  event (s.started && s.reached (s.line n).holdDeadline && (s.line n).supervised == some .active)
    (fun t => noticeLine n (qualifyLine n t)) s

/-- CHORD_QUALIFIES (R180, R141). -/
def execChordQualifies (s : State) : Host.Outcome State Fault Refusal :=
  event (s.started && s.reached s.lines.chordDeadline) (fun t => takeChord (setChord none true t)) s

/-- SOUNDER_CADENCE (R145, R181). -/
def execSounderCadence (z : Zone) (s : State) : Host.Outcome State Fault Refusal := event true (soundCadence z) s

/-- CANDIDATE_CHANGE (R176, R177). -/
def execCandidateChange (n : LineId) (level : Level) (s : State) : Host.Outcome State Fault Refusal :=
  event true (setCandidate n level) s

end Sys2Proof.Machine
end

