-- ==== Sys2Proof/Machine/Operands.lean ====
section
/-! DEFINITION. The operand forms of the requests: request codes (R208), the coding of payloads (R209), and the reading of a payload
that fits its request's form (R183). -/
namespace Sys2Proof.Machine

/-- The request code (R208). -/
def Request.code : Request → Byte
  | .readZone _ => 0x10
  | .readRoster _ _ => 0x11
  | .readDoor _ => 0x12
  | .readAlarms _ => 0x13
  | .readSuppression _ => 0x14
  | .readStatus => 0x15
  | .readConfig _ => 0x16
  | .fetchNotice => 0x17
  | .verdict _ => 0x20
  | .cacheLoad _ => 0x21
  | .cachePurge _ => 0x22
  | .setClock _ => 0x23
  | .writeSchedule _ => 0x24
  | .holdDoor _ => 0x25
  | .secureDoor _ => 0x26
  | .writePassageConfig _ => 0x27
  | .detect _ _ => 0x30
  | .clearDetect _ _ => 0x31
  | .holdZone _ => 0x32
  | .unholdZone _ => 0x33
  | .cancel _ => 0x34
  | .forceRelease _ => 0x35
  | .vent _ => 0x36
  | .restore _ => 0x37
  | .isolate _ => 0x38
  | .deisolate _ => 0x39
  | .writeSuppressionConfig _ _ => 0x3A
  | .ackAlarm _ => 0x40
  | .clearAlarm _ => 0x41
  | .resolveZone _ => 0x42
  | .verifyZone _ _ _ => 0x43
  | .removeOccupant _ => 0x44
  | .lockdown _ => 0x45
  | .endLockdown _ => 0x46
  | .concurForce _ => 0x47
  | .sweepAll => 0x48
  | .excludeSweep _ => 0x49
  | .includeSweep _ => 0x4A
  | .setService _ _ => 0x4B
  | .enableForceChord _ => 0x4C

/-! ### Writing payloads -/

/-- A two-byte field (R207). -/
def halfBytes (h : Half) : List Byte := [h.extractLsb' 8 8, h.extractLsb' 0 8]

/-- A four-byte field (R207). -/
def wordBytes (w : Word) : List Byte := [w.extractLsb' 24 8, w.extractLsb' 16 8, w.extractLsb' 8 8, w.extractLsb' 0 8]

/-- A field of a masked set, when present. -/
def fieldByte : Option Byte → List Byte
  | some b => [b]
  | none => []

/-- A two-byte field of a masked set, when present. -/
def fieldHalf : Option Half → List Byte
  | some h => halfBytes h
  | none => []

/-- The mask of a set of fields, bit i for the i-th (R209). -/
def maskBytes (present : List Bool) : List Byte := halfBytes (BitVec.ofNat 16 (bitsOf present))

/-- A request's payload (R209). -/
def CacheArgs.payload (e : CacheArgs) : List Byte :=
  wordBytes e.badge ++ [e.role] ++ halfBytes e.rights ++ [e.afterHours] ++ wordBytes e.lifetime

/-- A window as a request carries it. -/
def WindowArgs.payload (w : WindowArgs) : List Byte := [w.days] ++ halfBytes w.start ++ halfBytes w.stop

/-- A subject as a request carries it (R210). -/
def SubjectArgs.payload : SubjectArgs → List Byte
  | .none => [0]
  | .badge b => 1 :: wordBytes b
  | .door v => [2, v]
  | .station v => [3, v]
  | .line v => [4, v]
  | .loop v => [5, v]

/-- A key as a request carries it. -/
def KeyArgs.payload (k : KeyArgs) : List Byte := [k.kind, k.zone] ++ SubjectArgs.payload k.subject

/-- A zone or ALL. -/
def ZoneOrAll.payload : ZoneOrAll → List Byte
  | .zone z => [0, z]
  | .all => [1]

/-- The part form's fields (R200). -/
def PartFields.payload (f : PartFields) : List Byte :=
  maskBytes [f.releaseWindow.isSome, f.heldOpenLimit.isSome, f.pairingWindow.isSome, f.sweepInterval.isSome, f.loopRate.isSome]
    ++ fieldByte f.releaseWindow ++ fieldHalf f.heldOpenLimit ++ fieldByte f.pairingWindow ++ fieldHalf f.sweepInterval
    ++ fieldByte f.loopRate

/-- The zone form's fields (R199, R200). -/
def ZoneFields.payload (f : ZoneFields) : List Byte :=
  maskBytes [f.outerRail.isSome, f.innerRail.isSome, f.outerConfigured.isSome, f.innerConfigured.isSome, f.cap.isSome,
      f.pinAfterHours.isSome, f.travelLimit.isSome, f.loneInterval.isSome]
    ++ fieldByte f.outerRail ++ fieldByte f.innerRail ++ fieldByte f.outerConfigured ++ fieldByte f.innerConfigured
    ++ fieldByte f.cap ++ fieldByte f.pinAfterHours ++ fieldHalf f.travelLimit ++ fieldByte f.loneInterval

/-- The suppression fields (R146). -/
def SuppressionFields.payload (f : SuppressionFields) : List Byte :=
  maskBytes [f.coincidence.isSome, f.preDischarge.isSome, f.resume.isSome, f.confirmTime.isSome, f.soakTime.isSome]
    ++ fieldByte f.coincidence ++ fieldByte f.preDischarge ++ fieldByte f.resume ++ fieldByte f.confirmTime
    ++ fieldHalf f.soakTime

/-- The payload of a request (R209). -/
def Request.payload : Request → List Byte
  | .readZone z | .readSuppression z | .holdZone z | .unholdZone z | .cancel z | .forceRelease z | .vent z | .restore z
  | .isolate z | .deisolate z | .resolveZone z | .concurForce z | .excludeSweep z | .includeSweep z => [z]
  | .readRoster z first => [z, first]
  | .readDoor d | .holdDoor d | .secureDoor d => [d]
  | .readAlarms first => [first]
  | .readStatus | .fetchNotice | .sweepAll => []
  | .readConfig .part => [0]
  | .readConfig .control => [1]
  | .readConfig .schedule => [2]
  | .readConfig (.zone z) => [3, z]
  | .verdict a => [a.queryId] ++ wordBytes a.badge ++ [a.outcome, a.role, a.afterHours] ++ halfBytes a.rights
      ++ wordBytes a.lifetime
  | .cacheLoad es => BitVec.ofNat 8 es.length :: es.flatMap CacheArgs.payload
  | .cachePurge (.badge b) => 0 :: wordBytes b
  | .cachePurge .all => [1]
  | .setClock v => wordBytes v
  | .writeSchedule ws => BitVec.ofNat 8 ws.length :: ws.flatMap WindowArgs.payload
  | .writePassageConfig (.part f) => 0 :: PartFields.payload f
  | .writePassageConfig (.zone z f) => 1 :: z :: ZoneFields.payload f
  | .detect z d | .clearDetect z d => [z, d]
  | .writeSuppressionConfig z f => z :: SuppressionFields.payload f
  | .ackAlarm (.key k none) => 0 :: (KeyArgs.payload k ++ [0])
  | .ackAlarm (.key k (some n)) => 0 :: (KeyArgs.payload k ++ [1, n])
  | .ackAlarm .all => [1]
  | .clearAlarm (.key k) => 0 :: KeyArgs.payload k
  | .clearAlarm .all => [1]
  | .verifyZone z i v => [z, i, v]
  | .removeOccupant b => wordBytes b
  | .lockdown w | .endLockdown w => ZoneOrAll.payload w
  | .setService z d => [z, d]
  | .enableForceChord v => [v]

/-- A whole request frame (R208). -/
def Request.frame (r : Request) : List Byte :=
  let body := byte1 (Request.payload r).length ++ [Request.code r] ++ Request.payload r
  body ++ crc16Bytes body

/-! ### Reading payloads (R183, R209) -/

/-- The entries of CACHE_LOAD. -/
def readCacheEntries : Nat → List Byte → Option (List CacheArgs)
  | 0, [] => some []
  | n + 1, b0 :: b1 :: b2 :: b3 :: role :: r1 :: r0 :: ah :: l0 :: l1 :: l2 :: l3 :: rest =>
    (readCacheEntries n rest).map
      (CacheArgs.mk (b0 ++ b1 ++ b2 ++ b3) role (r1 ++ r0) ah (l0 ++ l1 ++ l2 ++ l3) :: ·)
  | _, _ => none

/-- The windows of WRITE_SCHEDULE. -/
def readWindows : Nat → List Byte → Option (List WindowArgs)
  | 0, [] => some []
  | n + 1, days :: s1 :: s0 :: e1 :: e0 :: rest => (readWindows n rest).map (WindowArgs.mk days (s1 ++ s0) (e1 ++ e0) :: ·)
  | _, _ => none

/-- A field of a masked set. -/
def takeByte : Bool → List Byte → Option (Option Byte × List Byte)
  | false, bs => some (none, bs)
  | true, b :: bs => some (some b, bs)
  | true, [] => none

/-- A two-byte field of a masked set. -/
def takeHalf : Bool → List Byte → Option (Option Half × List Byte)
  | false, bs => some (none, bs)
  | true, h :: l :: bs => some (some (h ++ l), bs)
  | true, _ => none

/-- The part form (R200). -/
def readPart (mask : Half) (bs : List Byte) : Option PartFields := do
  let (a, bs) ← takeByte (mask.getLsbD 0) bs
  let (b, bs) ← takeHalf (mask.getLsbD 1) bs
  let (c, bs) ← takeByte (mask.getLsbD 2) bs
  let (d, bs) ← takeHalf (mask.getLsbD 3) bs
  let (e, bs) ← takeByte (mask.getLsbD 4) bs
  if bs = [] ∧ mask.toNat < 32 then some ⟨a, b, c, d, e⟩ else none

/-- The zone form (R200). -/
def readZoneFields (mask : Half) (bs : List Byte) : Option ZoneFields := do
  let (a, bs) ← takeByte (mask.getLsbD 0) bs
  let (b, bs) ← takeByte (mask.getLsbD 1) bs
  let (c, bs) ← takeByte (mask.getLsbD 2) bs
  let (d, bs) ← takeByte (mask.getLsbD 3) bs
  let (e, bs) ← takeByte (mask.getLsbD 4) bs
  let (f, bs) ← takeByte (mask.getLsbD 5) bs
  let (g, bs) ← takeHalf (mask.getLsbD 6) bs
  let (h, bs) ← takeByte (mask.getLsbD 7) bs
  if bs = [] ∧ mask.toNat < 256 then some ⟨a, b, c, d, e, f, g, h⟩ else none

/-- The suppression fields (R146). -/
def readSuppFields (mask : Half) (bs : List Byte) : Option SuppressionFields := do
  let (a, bs) ← takeByte (mask.getLsbD 0) bs
  let (b, bs) ← takeByte (mask.getLsbD 1) bs
  let (c, bs) ← takeByte (mask.getLsbD 2) bs
  let (d, bs) ← takeByte (mask.getLsbD 3) bs
  let (e, bs) ← takeHalf (mask.getLsbD 4) bs
  if bs = [] ∧ mask.toNat < 32 then some ⟨a, b, c, d, e⟩ else none

/-- A subject, with the bytes after it (R210). -/
def readSubject : List Byte → Option (SubjectArgs × List Byte)
  | 0 :: bs => some (.none, bs)
  | 1 :: b0 :: b1 :: b2 :: b3 :: bs => some (.badge (b0 ++ b1 ++ b2 ++ b3), bs)
  | 2 :: v :: bs => some (.door v, bs)
  | 3 :: v :: bs => some (.station v, bs)
  | 4 :: v :: bs => some (.line v, bs)
  | 5 :: v :: bs => some (.loop v, bs)
  | _ => none

/-- A key, with the bytes after it. -/
def readKey : List Byte → Option (KeyArgs × List Byte)
  | kind :: zone :: bs => (readSubject bs).map fun p => (⟨kind, zone, p.1⟩, p.2)
  | _ => none

/-- What ACK_ALARM names. -/
def readAck : List Byte → Option AckArgs
  | [1] => some .all
  | 0 :: bs =>
    match readKey bs with
    | some (k, [0]) => some (.key k none)
    | some (k, [1, n]) => some (.key k (some n))
    | _ => none
  | _ => none

/-- What CLEAR_ALARM names. -/
def readClear : List Byte → Option ClearArgs
  | [1] => some .all
  | 0 :: bs =>
    match readKey bs with
    | some (k, []) => some (.key k)
    | _ => none
  | _ => none

/-- A zone or ALL. -/
def readZoneOrAll : List Byte → Option ZoneOrAll
  | [0, z] => some (.zone z)
  | [1] => some .all
  | _ => none

/-- The requests whose payload is one byte, by code. -/
def oneByte (c : Nat) (b : Byte) : Option Request :=
  match c with
  | 0x10 => some (.readZone b)
  | 0x12 => some (.readDoor b)
  | 0x13 => some (.readAlarms b)
  | 0x14 => some (.readSuppression b)
  | 0x25 => some (.holdDoor b)
  | 0x26 => some (.secureDoor b)
  | 0x32 => some (.holdZone b)
  | 0x33 => some (.unholdZone b)
  | 0x34 => some (.cancel b)
  | 0x35 => some (.forceRelease b)
  | 0x36 => some (.vent b)
  | 0x37 => some (.restore b)
  | 0x38 => some (.isolate b)
  | 0x39 => some (.deisolate b)
  | 0x42 => some (.resolveZone b)
  | 0x47 => some (.concurForce b)
  | 0x49 => some (.excludeSweep b)
  | 0x4A => some (.includeSweep b)
  | 0x4C => some (.enableForceChord b)
  | _ => none

/-- READ_CONFIG's selector. -/
def readSelector : List Byte → Option ConfigSelector
  | [0] => some .part
  | [1] => some .control
  | [2] => some .schedule
  | [3, z] => some (.zone z)
  | _ => none

/-- WRITE_PASSAGE_CONFIG's forms. -/
def readPassageForm : List Byte → Option PassageForm
  | 0 :: m1 :: m0 :: bs => (readPart (m1 ++ m0) bs).map .part
  | 1 :: z :: m1 :: m0 :: bs => (readZoneFields (m1 ++ m0) bs).map (.zone z)
  | _ => none

/-- The request a payload spells under a request code, absent when it does not fit the form (R183). -/
def parseRequest (code : Byte) (payload : List Byte) : Option Request :=
  match code.toNat, payload with
  | 0x11, [z, first] => some (.readRoster z first)
  | 0x15, [] => some .readStatus
  | 0x16, bs => (readSelector bs).map .readConfig
  | 0x17, [] => some .fetchNotice
  | 0x20, [q, b0, b1, b2, b3, outcome, role, ah, r1, r0, l0, l1, l2, l3] =>
    some (.verdict ⟨q, b0 ++ b1 ++ b2 ++ b3, outcome, role, ah, r1 ++ r0, l0 ++ l1 ++ l2 ++ l3⟩)
  | 0x21, n :: bs => if n.toNat ≤ 20 then (readCacheEntries n.toNat bs).map .cacheLoad else none
  | 0x22, [0, b0, b1, b2, b3] => some (.cachePurge (.badge (b0 ++ b1 ++ b2 ++ b3)))
  | 0x22, [1] => some (.cachePurge .all)
  | 0x23, [v0, v1, v2, v3] => some (.setClock (v0 ++ v1 ++ v2 ++ v3))
  | 0x24, n :: bs => (readWindows n.toNat bs).map .writeSchedule
  | 0x27, bs => (readPassageForm bs).map .writePassageConfig
  | 0x30, [z, d] => some (.detect z d)
  | 0x31, [z, d] => some (.clearDetect z d)
  | 0x3A, z :: m1 :: m0 :: bs => (readSuppFields (m1 ++ m0) bs).map (.writeSuppressionConfig z)
  | 0x40, bs => (readAck bs).map .ackAlarm
  | 0x41, bs => (readClear bs).map .clearAlarm
  | 0x43, [z, i, v] => some (.verifyZone z i v)
  | 0x44, [b0, b1, b2, b3] => some (.removeOccupant (b0 ++ b1 ++ b2 ++ b3))
  | 0x45, bs => (readZoneOrAll bs).map .lockdown
  | 0x46, bs => (readZoneOrAll bs).map .endLockdown
  | 0x48, [] => some .sweepAll
  | 0x4B, [z, d] => some (.setService z d)
  | c, [b] => oneByte c b
  | _, _ => none

/-- What a frame of at least two bytes is judged to be (R183). -/
inductive FrameKind where
  | bad
  | resetFrame
  | collect
  | request (r : Request)
  deriving DecidableEq, Repr

/-- The judgement of a frame, less the state of the port (R183, R208). -/
def judgeFrame (code : Byte) (bytes : List Byte) : FrameKind :=
  let n := (bytes.headD 0).toNat
  let body := bytes.take (n + 2)
  if bytes.length ≠ n + 4 ∨ 248 < n ∨ bytes.drop (n + 2) ≠ crc16Bytes body then .bad
  else match code.toNat, body.drop 2 with
    | 0, [] => .collect
    | 1, [] => .resetFrame
    | _, payload =>
      match parseRequest code payload with
      | some r => .request r
      | none => .bad

end Sys2Proof.Machine
end

