-- ==== Sys2Proof/Machine/Ports.lean ====
section
/-! DEFINITION. The port unit: the link and its frames (R182, R183, R184), rights (R185), taking a request and placing its reply (R184, R186),
FETCH_NOTICE (R193) and the port reset (R195, R196). -/
namespace Sys2Proof.Machine

/-- Writes a port's link. -/
def setLink (p : PortId) (x : Link) (s : State) : State := s.setPort p { s.port p with link := x }

/-- The passage unit hears each frame the access port answers (R60, R183). -/
def heard (p : PortId) (s : State) : State :=
  if p = .access then { s with passage.silent := false, passage.timeouts := 0 } else s

/-- A reply frame (R208): length, echo, status, payload and the CRC-16 over them. -/
def Reply.frame (r : Reply) : List Byte :=
  let body := byte1 r.payload.length ++ [r.echo] ++ byte1 r.status.code ++ r.payload
  body ++ crc16Bytes body

/-- The answer phase carries a frame of its own: BAD_FRAME or BUSY (R183). -/
def answerNow (p : PortId) (echo : Byte) (status : Status) (s : State) : State :=
  heard p (setLink p (.answering (Reply.frame ⟨echo, status, []⟩) false) s)

/-- A request is placed in the slot and its answer phase carries nothing (R183). -/
def arrive (p : PortId) (r : Request) (s : State) : State :=
  heard p (s.setPort p { s.port p with slot := some r, link := .answering [] false })

/-- The port whose rights a request belongs to, absent for the requests of all ports (R185). -/
def Request.owner (r : Request) : Option PortId :=
  match (Request.code r).toNat / 16 with
  | 2 => some .access
  | 3 => some .suppression
  | 4 => some .guard
  | _ => none

/-- A port has the right to a request (R185). -/
def permitted (p : PortId) (r : Request) : Bool :=
  match Request.owner r with
  | some q => p == q
  | none => true

/-- The reply is placed in the reply slot and the request slot is emptied (R184). -/
def placeReply (p : PortId) (r : Request) (status : Status) (payload : List Byte) (s : State) : State :=
  s.setPort p { s.port p with slot := none, reply := some ⟨Request.code r, status, payload⟩ }

/-- What an owning unit decides of a request (R186): a refusal, a read, a change with the payload the state after it gives, or a
store write that begins (R202). -/
inductive Decision where
  | refuse (status : Status) (payload : List Byte)
  | read (payload : List Byte)
  | done (status : Status) (effect : State) (payload : State → List Byte)
  | write (effect : State)

/-- The owning unit's decision is carried out (R184, R186, R202). -/
def carryOut (p : PortId) (r : Request) (before : State) : Decision → State
  | .refuse status payload => placeReply p r status payload before
  | .read payload => placeReply p r .ok payload before
  | .done status effect payload =>
    let t := finishRequest before effect
    placeReply p r status (payload t) t
  | .write effect => { effect with store.write := some ⟨p, before.now⟩ }

/-- A request in the slot is taken: its right is checked and its owner decides it (R184, R185). -/
def takeRequest (p : PortId) (r : Request) (decide : State → Decision) (s : State) : State :=
  if permitted p r then carryOut p r s (decide s) else placeReply p r .notPermitted [] s

/-- A port holds a request whose store write is in progress (R202). -/
def heldForWrite (s : State) (p : PortId) : Bool := (s.store.write.map (·.port)) == some p

/-- The command of a request (log entry 4): the request waiting in the slot is taken; a request that finds the port READY arrives and
is taken in the same step; any other is answered BUSY (R183). -/
def request (p : PortId) (r : Request) (decide : State → Decision) (s : State) : Host.Outcome State Fault Refusal :=
  if (s.port p).slot = some r ∧ !heldForWrite s p ∧ s.started then .next (takeRequest p r decide s)
  else if s.ready p then .next (takeRequest p r decide (arrive p r s))
  else .next (answerNow p (Request.code r) .busy s)

/-! ### Port reset (R195, R196) -/

/-- The RESYNC notice of cause PORT_RESET (R192). -/
def resyncPortReset (s : State) : Notice :=
  { kind := .resync, uptime := s.uptime, zone := none, subject := .none, data := [1] }

/-- The port's own part of its reset; a request held for a store write is discarded and the write abandoned (R195, R203). -/
def clearPort (p : PortId) (s : State) : State :=
  let s1 : State := if heldForWrite s p then { s with store.write := none } else s
  s1.setPort p
    { slot := none, reply := none, notices := [resyncPortReset s1], resync := false, drops := 0, link := .idle }

/-- The port reset with what it hands on (R195, R196). -/
def resetPort (p : PortId) (s : State) : State :=
  let s1 := clearPort p s
  match p with
  | .access => endAllQueries s1
  | .suppression | .guard => if s1.supp.window.closesAt.isSome then closeWindow .portReset s1 else s1

/-! ### Frames (R183, R184) -/

/-- A collection (R184, R197). -/
def collect (p : PortId) (s : State) : State :=
  let x := s.port p
  if !s.started || (x.reply.isNone && x.slot.isSome) then answerNow p 0 .busy s
  else match x.reply with
    | some r => heard p (setLink p (.answering (Reply.frame r) true) s)
    | none => answerNow p 0 .ok s

/-- A judged frame acts (R183, R197). -/
def takeFrame (p : PortId) (echo : Byte) (s : State) : FrameKind → State
  | .bad => answerNow p echo .badFrame s
  | .resetFrame => setLink p (.answering [] false) (finish s (resetPort p s))
  | .collect => collect p s
  | .request r => if s.ready p then arrive p r s else answerNow p echo .busy s

/-- FRAME_RECEIVED (R183): a frame of fewer than two bytes carries no code to echo and is discarded (log entry 15). -/
def execFrameReceived (p : PortId) (bytes : List Byte) (s : State) : Host.Outcome State Fault Refusal :=
  match bytes with
  | _ :: code :: _ => .next (takeFrame p code s (judgeFrame code bytes))
  | _ => .next (setLink p .idle s)

/-- TRANSACTION_CUT_SHORT (R182, R184): nothing changes but that the transaction is over; a reply being collected stays. -/
def execTransactionCutShort (p : PortId) (s : State) : Host.Outcome State Fault Refusal := .next (setLink p .idle s)

/-- TRANSACTION_END (R184): at the end of a collection the reply slot is emptied. -/
def execTransactionEnd (p : PortId) (s : State) : Host.Outcome State Fault Refusal :=
  match (s.port p).link with
  | .answering _ true => .next (s.setPort p { s.port p with reply := none, link := .idle })
  | _ => .next (setLink p .idle s)

/-- SELECT_HELD_TIMEOUT (R182, R195): a port reset. -/
def execSelectHeldTimeout (p : PortId) (s : State) : Host.Outcome State Fault Refusal := .next (finish s (resetPort p s))

/-! ### FETCH_NOTICE (R191, R193) -/

/-- A notice record (R210). -/
def Notice.bytes (n : Notice) : List Byte :=
  byte1 n.kind.code ++ zoneByte n.zone ++ byte1 n.subject.form ++ byte4 n.uptime ++ n.subject.value ++ n.data

/-- The RESYNC notice of cause OVERFLOW with the drop count (R191, R192): two bytes right after the cause, with no presence byte, for
this cause alone (DESIGN CHOICE, log entry 11). -/
def resyncOverflow (s : State) (drops : Nat) : Notice :=
  { kind := .resync, uptime := s.uptime, zone := none, subject := .none, data := [2] ++ byte2 drops }

/-- The queue after its head is fetched: a RESYNC OVERFLOW is placed when the resync flag is set (R191). -/
def fetched (s : State) (x : Port) : Port :=
  let rest := x.notices.drop 1
  if x.resync then { x with notices := rest ++ [resyncOverflow s x.drops], resync := false, drops := 0 }
  else { x with notices := rest }

/-- FETCH_NOTICE is decided (R193). -/
def decideFetchNotice (p : PortId) (s : State) : Decision :=
  match (s.port p).notices with
  | n :: _ =>
    .done .ok (s.setPort p (fetched s (s.port p))) fun t => byte1 (t.port p).notices.length ++ Notice.bytes n
  | [] => .read (byte1 0)

/-- FETCH_NOTICE. -/
def execFetchNotice (p : PortId) (s : State) : Host.Outcome State Fault Refusal :=
  request p .fetchNotice (decideFetchNotice p) s

end Sys2Proof.Machine
end

