-- ==== Sys2Proof/Machine/Reads.lean ====
section
/-! DEFINITION. The requests that read: READ_ZONE and READ_ROSTER (R25, R210), READ_DOOR (R52), READ_ALARMS (R115), READ_SUPPRESSION (R148),
READ_STATUS (R194), READ_CONFIG (R204). Layout choices: log entry 28. -/
namespace Sys2Proof.Machine

/-- READ_ZONE's reply (R25). -/
def zoneReply (s : State) (z : Zone) : List Byte :=
  let x := s.zone z
  let at_ (loc : Location) : List Byte :=
    byte1 (s.badgedAt z loc) ++ byte1 (s.countAt z loc - s.badgedAt z loc)
  byte1 (serviceCode x.inService) ++ byte1 (bitsOf x.reasons.members) ++ byte1 x.headcount ++ byteFlag x.headcountValid
    ++ byte1 (s.certainty z).code ++ byte2 x.generation.toNat ++ byteFlag x.sweepMark
    ++ byteOption (fun (p : Pairing) => byte4 p.badge.toNat ++ byte1 p.door.val ++ byte6 p.deadline) x.pairing
    ++ byte1 x.deferrals ++ byte1 x.lastResult.code ++ byte1 (s.roster z).length
    ++ at_ .admitted ++ at_ .vestibule ++ at_ .inner ++ byte1 (s.cfg z).cap ++ byte1 s.freeSlots

/-- An optional badge as the entry record carries it, 0 when absent (R210). -/
def badgeOrZero (b : Option Badge) : List Byte := byte4 ((b.map (·.toNat)).getD 0)

/-- An entry record (R210). -/
def Entry.bytes (e : Entry) : List Byte :=
  byte1 e.number.val ++ byte1 e.zone.val ++ byte1 e.role.code ++ byte1 e.location.code ++ badgeOrZero e.badge
    ++ byte4 e.admittedAt ++ badgeOrZero e.escort ++ byte4 (e.deadline.getD 0) ++ byte1 e.checkIns
    ++ byte1 (bitsOf [e.duress, e.unescorted, e.lone, e.deadline.isSome]) ++ byte1 (e.group.getD 0)

/-- READ_ROSTER's reply (R25, R210). -/
def rosterReply (s : State) (z : Zone) (first : Nat) : List Byte :=
  byte2 (s.zone z).generation.toNat ++ byte1 (s.certainty z).code ++ byte1 (s.roster z).length ++ byte1 first
    ++ (((s.roster z).drop first).take 10).flatMap Entry.bytes

/-- A release with every field of R28. -/
def releaseBytes (s : State) (r : Release) : List Byte :=
  byte1 r.kind.code ++ byte1 r.origin.code ++ byteOption byte1 r.group ++ byteOption byte4 (s.remaining r.window)
    ++ byte1 (bitsOf r.wait.members) ++ byte6 r.queuedAt ++ byteFlag r.opened ++ byteFlag r.cut

/-- A door's place in its rail queue (form 0) or on the outside list (form 1), counted from 0 at the head (R52; DESIGN CHOICE, log
entry 28). -/
def placeBytes (s : State) (d : DoorId) : List Byte :=
  let x := s.rail (s.railOf d)
  match x.queue.findIdx? (· == d), x.outside.findIdx? (· == d) with
  | some i, _ => [1, 0] ++ byte1 i
  | none, some i => [1, 1] ++ byte1 i
  | none, none => [0]

/-- READ_DOOR's reply (R52); the ms remaining of the release window take four bytes (DESIGN CHOICE, log entry 51). -/
def doorReply (s : State) (d : DoorId) : List Byte :=
  let x := s.door d
  byte1 x.state.code ++ byteOption (releaseBytes s) x.release ++ byteFlag x.relock ++ byte1 x.contact.code
    ++ byte1 x.bolt.code ++ byte2 x.travel ++ byteFlag x.degraded ++ byteFlag x.forced ++ byteOption byte4 x.securedAt
    ++ byte1 (Rail.code (s.railOf d)) ++ placeBytes s d ++ byteList byte6 (s.recentStarts (s.railOf d))
    ++ byteFlag (s.egressOnly (zoneOf d)) ++ byteFlag (s.underSweep (zoneOf d))

/-- READ_ALARMS's reply (R115). The distress count and the latch stand zone by zone, each count before its latch as a flag of one byte
(DESIGN CHOICE, log entry 28). -/
def alarmsReply (s : State) (first : Nat) : List Byte :=
  byte1 s.alarms.queue.length ++ byte2 s.alarms.generation.toNat ++ byteFlag s.alarms.overflowMark
    ++ byte1 s.alarms.overflowCount ++ (allZones.flatMap fun z => byte1 (s.distress z) ++ byteFlag (s.latch z))
    ++ byte1 first ++ byteList AlarmRec.bytes ((s.alarms.queue.drop first).take 10)

/-- READ_SUPPRESSION's reply (R148). PULL and PRESSURE are the qualified marks their lines hold now, since R179 hands nothing on when one is
lost, and ABORT is the input as last handed on (DESIGN CHOICE, log entry 28). The ms remaining take four bytes (DESIGN CHOICE, log
entry 51). -/
def suppressionReply (s : State) (z : Zone) : List Byte :=
  let r := s.suppRec z
  let c := s.cfg z
  let w := s.supp.window
  byte1 r.state.code ++ byteList (fun d => [d]) r.detectors ++ byteFlag r.confirmed ++ byte1 (bitsOf r.holds.members)
    ++ byte4 r.countdown ++ byteOption (fun k => byte1 k.code) r.cause ++ byteOption byte4 (s.remaining r.deadline)
    ++ byteFlag r.soakComplete ++ byteFlag r.pullSeen
    ++ byte1 c.coincidence ++ byte1 c.preDischarge ++ byte1 c.resume ++ byte1 c.confirmTime ++ byte2 c.soakTime
    ++ byteFlag (s.isolationFlag z)
    ++ byteFlag (s.line (pullLine z)).qualified ++ byteFlag (s.abortActive z) ++ byteFlag (s.line (pressureLine z)).qualified
    ++ byteFlag w.closesAt.isNone ++ zoneByte w.suppressionHalf ++ zoneByte w.guardHalf
    ++ byteOption byte4 (s.remaining w.closesAt) ++ byteFlag s.control.forceChord

/-- One port's items of READ_STATUS (R194); the request slot full or empty is a flag, 1 full (DESIGN CHOICE, log entry 28). -/
def Port.bytes (x : Port) : List Byte :=
  byteFlag x.slot.isSome ++ byteFlag x.reply.isSome ++ byte1 x.notices.length ++ byteFlag x.resync ++ byte2 x.drops

/-- READ_STATUS's reply (R194). Zone and kind of the sweep in progress stand behind one presence byte, and an output's commanded level is a
flag, 1 driven (DESIGN CHOICE, log entry 28). -/
def statusReply (s : State) : List Byte :=
  byte4 s.uptime ++ byteFlag s.store.defaultedMark ++ byteFlag s.store.write.isSome
    ++ Port.bytes s.ports.access ++ Port.bytes s.ports.suppression ++ Port.bytes s.ports.guard
    ++ byteFlag s.passage.silent ++ byte1 s.passage.timeouts ++ byte1 s.passage.queries.length ++ byte1 s.liveCache.length
    ++ byte4 s.hours.clock ++ byteFlag s.hours.clockValid ++ byte1 s.hours.state.code
    ++ byteFlag s.alarms.overflowMark ++ byte1 s.alarms.overflowCount ++ byte1 s.freeSlots
    ++ byte1 s.sweep.pointer.val
    ++ byteOption (fun (r : SweepRec) => byte1 r.zone.val ++ byte1 r.kind.code) s.sweep.inProgress
    ++ byteOption (byteList fun (z : Zone) => byte1 z.val) s.sweep.allList
    ++ (allLoops.flatMap fun l => byte1 (s.loop l).state.code)
    ++ (allLoops.flatMap fun l => allSlots.flatMap fun a => byte1 (s.slot l a).online.code)
    ++ (allZones.flatMap fun z =>
          byteFlag (s.output z).release ++ byteFlag (s.output z).vent ++ byteFlag (s.output z).sounding)
    ++ allZones.flatMap fun z => byte1 (s.output z).pattern.code

/-- A record's values with its write count and defaulted mark (R204). -/
def recordReply {α : Type} (values : List Byte) (r : Stored α) : List Byte :=
  values ++ byte4 r.current.count.toNat ++ byteFlag r.defaulted

/-! ### The decisions -/

/-- A read that names a zone (R25, R148). -/
def readOfZone (z : Byte) (reply : State → Zone → List Byte) (s : State) : Decision :=
  match zoneArg z with
  | some k => .read (reply s k)
  | none => .refuse .badArgument []

/-- READ_ROSTER is decided (R25). -/
def decideReadRoster (z first : Byte) (s : State) : Decision :=
  match zoneArg z with
  | some k => if first.toNat ≤ 23 then .read (rosterReply s k first.toNat) else .refuse .badArgument []
  | none => .refuse .badArgument []

/-- READ_DOOR is decided (R52). -/
def decideReadDoor (d : Byte) (s : State) : Decision :=
  match doorArg d with
  | some k => .read (doorReply s k)
  | none => .refuse .badArgument []

/-- READ_ALARMS is decided (R115). -/
def decideReadAlarms (first : Byte) (s : State) : Decision :=
  if first.toNat ≤ 31 then .read (alarmsReply s first.toNat) else .refuse .badArgument []

/-- READ_CONFIG is decided (R204). -/
def decideReadConfig (which : ConfigSelector) (s : State) : Decision :=
  match which with
  | .part => .read (recordReply s.partCfg.paramBytes s.store.part)
  | .control => .read (recordReply s.control.bytes s.store.control)
  | .schedule => .read (recordReply (byteList Window.bytes s.partCfg.schedule) s.store.part)
  | .zone z =>
    match zoneArg z with
    | some k => .read (recordReply (s.cfg k).bytes (s.storedZone k))
    | none => .refuse .badArgument []

/-! ### The commands -/

/-- READ_ZONE (R25). -/
def execReadZone (p : PortId) (z : Byte) (s : State) : Host.Outcome State Fault Refusal :=
  request p (.readZone z) (readOfZone z zoneReply) s

/-- READ_ROSTER (R25). -/
def execReadRoster (p : PortId) (z first : Byte) (s : State) : Host.Outcome State Fault Refusal :=
  request p (.readRoster z first) (decideReadRoster z first) s

/-- READ_DOOR (R52). -/
def execReadDoor (p : PortId) (d : Byte) (s : State) : Host.Outcome State Fault Refusal :=
  request p (.readDoor d) (decideReadDoor d) s

/-- READ_ALARMS (R115). -/
def execReadAlarms (p : PortId) (first : Byte) (s : State) : Host.Outcome State Fault Refusal :=
  request p (.readAlarms first) (decideReadAlarms first) s

/-- READ_SUPPRESSION (R148). -/
def execReadSuppression (p : PortId) (z : Byte) (s : State) : Host.Outcome State Fault Refusal :=
  request p (.readSuppression z) (readOfZone z suppressionReply) s

/-- READ_STATUS (R194). -/
def execReadStatus (p : PortId) (s : State) : Host.Outcome State Fault Refusal :=
  request p .readStatus (fun t => .read (statusReply t)) s

/-- READ_CONFIG (R204). -/
def execReadConfig (p : PortId) (which : ConfigSelector) (s : State) : Host.Outcome State Fault Refusal :=
  request p (.readConfig which) (decideReadConfig which) s

end Sys2Proof.Machine
end

