-- ==== Sys2Proof/Machine/AccessRequests.lean ====
section
/-! DEFINITION. The access port's requests that write no store: VERDICT (R59), CACHE_LOAD and CACHE_PURGE (R63), SET_CLOCK (R83),
HOLD_DOOR and SECURE_DOOR (R46). -/
namespace Sys2Proof.Machine

/-- A role an access request may carry: one of the four (R59, R63). -/
def roleArg (b : Byte) : Option Role :=
  match b.toNat with
  | 0 => some .staff
  | 1 => some .escort
  | 2 => some .visitor
  | 3 => some .contractor
  | _ => none

/-- A flag of a request (R209). -/
def flagArg (b : Byte) : Option Bool :=
  match b.toNat with
  | 0 => some false
  | 1 => some true
  | _ => none

/-- The cache entry a GRANT loads (R59, R62). -/
def grantEntry (s : State) (a : VerdictArgs) (role : Role) (afterHours : Bool) : CacheEntry :=
  ⟨a.badge, role, a.rights, afterHours, s.uptime + a.lifetime.toNat⟩

/-- The cache effect of a VERDICT, matched or not (R59). -/
def verdictCache (a : VerdictArgs) (deny : Bool) (role : Role) (afterHours : Bool) (s : State) : State :=
  if deny then cacheRemove a.badge s
  else if a.lifetime.toNat = 0 then s
  else cacheInsert (grantEntry s a role afterHours) s

/-- A matched query's presentation is decided (R59). -/
def verdictDecide (q : Query) (a : VerdictArgs) (deny : Bool) (role : Role) (afterHours : Bool) (s : State) : State :=
  if deny then denyPresentation q.presentation .verdict .deniedByMaster s
  else decideGrant q.presentation .verdict ⟨role, a.rights, afterHours⟩ s

/-- VERDICT is decided (R59); an outcome or mark outside its codes is BAD_ARGUMENT (log entry 15). -/
def decideVerdict (a : VerdictArgs) (s : State) : Decision :=
  match roleArg a.role, flagArg a.outcome, flagArg a.afterHours with
  | some role, some deny, some ah =>
    if !badgeOk a.badge || Config.lifetimeMax < a.lifetime.toNat then .refuse .badArgument []
    else
      let s1 := verdictCache a deny role ah s
      match s.passage.queries.find? fun q => q.id == a.queryId && q.badge == a.badge with
      | some q =>
        .done .ok
          (verdictDecide q a deny role ah { endQuery q.id s1 with passage.timeouts := 0 }) fun _ => []
      | none => .done .late s1 fun _ => []
  | _, _, _ => .refuse .badArgument []

/-- One entry of CACHE_LOAD, absent when out of range (R63). -/
def cacheArg (s : State) (e : CacheArgs) : Option CacheEntry :=
  match roleArg e.role, flagArg e.afterHours with
  | some role, some ah =>
    if badgeOk e.badge && 1 ≤ e.lifetime.toNat && e.lifetime.toNat ≤ Config.lifetimeMax then
      some ⟨e.badge, role, e.rights, ah, s.uptime + e.lifetime.toNat⟩
    else none
  | _, _ => none

/-- CACHE_LOAD is decided (R63). -/
def decideCacheLoad (es : List CacheArgs) (s : State) : Decision :=
  if 20 < es.length then .refuse .badFrame []
  else if es = [] ∨ es.any (fun e => (cacheArg s e).isNone) ∨ ¬ (es.map (·.badge)).Nodup then .refuse .badArgument []
  else .done .ok ((es.filterMap (cacheArg s)).foldl (fun t e => cacheInsert e t) s) fun _ => []

/-- CACHE_PURGE is decided (R63); the count of entries removed is one byte (DESIGN CHOICE, log entry 51). -/
def decideCachePurge (which : BadgeOrAll) (s : State) : Decision :=
  match which with
  | .all => .done .ok (s.setCache []) fun _ => byte1 s.liveCache.length
  | .badge b =>
    if badgeOk b then
      .done .ok (cacheRemove b s) fun _ => byte1 (s.liveCache.filter fun e => e.badge == b).length
    else .refuse .badArgument []

/-- SET_CLOCK is decided (R83). -/
def decideSetClock (v : Word) (s : State) : Decision :=
  if v.toNat < Config.weekSeconds then .done .ok (setClock v.toNat s) fun t => byte1 t.hours.state.code
  else .refuse .badArgument []

/-- HOLD_DOOR is decided (R46); a release that ends RAIL_BUSY at once is answered QUEUED (log entry 22). -/
def decideHoldDoor (d : Byte) (s : State) : Decision :=
  match doorArg d with
  | none => .refuse .badArgument []
  | some k =>
    if releaseTest s k .hold = .taken then
      let t := attachRelease k .hold .master none s
      let st := if (t.door k).state = .withdrawing then DoorState.withdrawing else DoorState.queued
      .done .ok t fun _ => byte1 st.code
    else .refuse .wrongState []

/-- SECURE_DOOR is decided (R46). -/
def decideSecureDoor (d : Byte) (s : State) : Decision :=
  match doorArg d with
  | none => .refuse .badArgument []
  | some k =>
    match (s.door k).release with
    | none => .read []
    | some r => if r.kind = .egress then .refuse .wrongState [] else .done .ok (cutShort k s) fun _ => []

/-- VERDICT (R59). -/
def execVerdict (p : PortId) (a : VerdictArgs) (s : State) : Host.Outcome State Fault Refusal :=
  request p (.verdict a) (decideVerdict a) s

/-- CACHE_LOAD (R63). -/
def execCacheLoad (p : PortId) (es : List CacheArgs) (s : State) : Host.Outcome State Fault Refusal :=
  request p (.cacheLoad es) (decideCacheLoad es) s

/-- CACHE_PURGE (R63). -/
def execCachePurge (p : PortId) (which : BadgeOrAll) (s : State) : Host.Outcome State Fault Refusal :=
  request p (.cachePurge which) (decideCachePurge which) s

/-- SET_CLOCK (R83). -/
def execSetClock (p : PortId) (v : Word) (s : State) : Host.Outcome State Fault Refusal :=
  request p (.setClock v) (decideSetClock v) s

/-- HOLD_DOOR (R46). -/
def execHoldDoor (p : PortId) (d : Byte) (s : State) : Host.Outcome State Fault Refusal :=
  request p (.holdDoor d) (decideHoldDoor d) s

/-- SECURE_DOOR (R46). -/
def execSecureDoor (p : PortId) (d : Byte) (s : State) : Host.Outcome State Fault Refusal :=
  request p (.secureDoor d) (decideSecureDoor d) s

end Sys2Proof.Machine
end

