-- ==== Sys2Proof/Machine/SuppressionRequests.lean ====
section
/-! DEFINITION. The suppression port's requests that write no store: DETECT and CLEAR_DETECT (R121, R122), HOLD_ZONE and UNHOLD_ZONE
(R127), CANCEL (R137), VENT (R135), RESTORE (R136), and the two halves of a force request (R143). -/
namespace Sys2Proof.Machine

/-- A request of a zone: BAD_ARGUMENT above Z15. -/
def ofZone (z : Byte) (decide : Zone → State → Decision) (s : State) : Decision :=
  match zoneArg z with
  | some k => decide k s
  | none => .refuse .badArgument []

/-- The state of a zone as a reply carries it. -/
def stateReply (z : Zone) (t : State) : List Byte := byte1 (t.suppRec z).state.code

/-- The state of a zone and the size of its detection set as a reply carries them (R121). -/
def detectReply (z : Zone) (t : State) : List Byte := stateReply z t ++ byte1 (t.suppRec z).detectors.length

/-- A detector joins the set of a zone that does not hold it; a zone in NORMAL enters ALERT, and the confirmation test is made
(R121, R122). -/
def addDetector (z : Zone) (d : Byte) (s : State) : State :=
  let r := s.suppRec z
  let set := r.detectors ++ [d]
  let r1 := { r with detectors := set, state := if r.state = .normal then .alert else r.state }
  if (r.state = .normal ∨ r.state = .alert) ∧ (s.cfg z).coincidence ≤ set.length then
    confirmZone z (suppNotice z .confirmed (s.setSuppRec z r1))
  else suppNotice z .detect (s.setSuppRec z r1)

/-- DETECT is decided (R121). The OK of a detector already held carries the state and the set's size, as that of one added does
(DESIGN CHOICE, log entry 45). -/
def decideDetect (d : Byte) (z : Zone) (s : State) : Decision :=
  let r := s.suppRec z
  if r.detectors.contains d then .read (detectReply z s)
  else if Config.detectionCap ≤ r.detectors.length then .refuse .badArgument []
  else .done .ok (addDetector z d s) (detectReply z)

/-- A detector leaves the set; a zone in ALERT whose set becomes empty enters NORMAL (R121). -/
def dropDetector (z : Zone) (d : Byte) (s : State) : State :=
  let r := s.suppRec z
  let set := r.detectors.filter (· != d)
  suppNotice z .clearDetect
    (s.setSuppRec z { r with detectors := set, state := if r.state = .alert ∧ set = [] then .normal else r.state })

/-- CLEAR_DETECT is decided (R121). The OK of a detector not held carries the state and the set's size, as that of one removed does
(DESIGN CHOICE, log entry 45). -/
def decideClearDetect (d : Byte) (z : Zone) (s : State) : Decision :=
  if (s.suppRec z).detectors.contains d then .done .ok (dropDetector z d s) (detectReply z)
  else .read (detectReply z s)

/-- PANEL_HOLD is added or removed; the state follows at the end of the step (R127, R128, R129). -/
def setPanelHold (z : Zone) (b : Bool) (s : State) : State :=
  let r := s.suppRec z
  suppNotice z .holdChange (s.setSuppRec z { r with holds := { r.holds with panelHold := b } })

/-- HOLD_ZONE and UNHOLD_ZONE are decided (R127). The OK of one that changes nothing carries the state, as that of one that changes
PANEL_HOLD does (DESIGN CHOICE, log entry 45). -/
def decidePanelHold (b : Bool) (z : Zone) (s : State) : Decision :=
  let r := s.suppRec z
  if r.state = .isolated then .refuse .wrongState []
  else if r.holds.panelHold = b then .read (stateReply z s)
  else .done .ok (setPanelHold z b s) (stateReply z)

/-- The taken CANCEL (R137, R144). -/
def cancelZone (z : Zone) (s : State) : State :=
  let r := s.suppRec z
  let t := if r.state = .held then discardHalves z s else s
  setSuppState z
    { r with confirmed := false, countdown := 0, pullSeen := false,
             state := if r.detectors = [] then .normal else .alert } (suppNotice z .cancel t)

/-- CANCEL is decided (R137). -/
def decideCancel (z : Zone) (s : State) : Decision :=
  let r := s.suppRec z
  if r.state ≠ .preDischarge ∧ r.state ≠ .held then .refuse .wrongState []
  else if s.bothMoving z then .refuse .doorsMoving []
  else .done .ok (cancelZone z s) (stateReply z)

/-- The taken VENT (R135). -/
def ventZone (z : Zone) (s : State) : State :=
  setSuppState z { s.suppRec z with state := .vent } (suppNotice z .vent s)

/-- VENT is decided (R135). -/
def decideVent (z : Zone) (s : State) : Decision :=
  let r := s.suppRec z
  if ¬ (r.state = .releaseFault ∨ (r.state = .soak ∧ r.soakComplete)) then .refuse .wrongState []
  else if s.bothMoving z then .refuse .doorsMoving []
  else .done .ok (ventZone z s) fun _ => []

/-- A door is SECURED or UNVERIFIED (R22, R136). -/
def doorAtRest (s : State) (d : DoorId) : Bool := (s.door d).state == .secured || (s.door d).state == .unverified

/-- The taken RESTORE (R136). -/
def restoreZone (z : Zone) (s : State) : State :=
  let r := s.suppRec z
  endAlarm .releaseFault (some z) .none
    (setSuppState z
      { r with state := .normal, detectors := [], confirmed := false, cause := none, soakComplete := false,
               pullSeen := false, countdown := 0 } (suppNotice z .restore s))

/-- RESTORE is decided (R136). -/
def decideRestore (z : Zone) (s : State) : Decision :=
  if (s.suppRec z).state ≠ .vent then .refuse .wrongState []
  else if doorAtRest s (outerDoor z) && doorAtRest s (innerDoor z) then .done .ok (restoreZone z s) fun _ => []
  else .refuse .doorsMoving []

/-! ### The force request (R143) -/

/-- This port's half and the other. -/
def halves (w : ForceWindow) (suppressionSide : Bool) : Option Zone × Option Zone :=
  if suppressionSide then (w.suppressionHalf, w.guardHalf) else (w.guardHalf, w.suppressionHalf)

/-- Sets this port's half (R143). -/
def setHalf (suppressionSide : Bool) (z : Zone) (s : State) : State :=
  noticeForce .halfTaken
    { s with supp.window :=
        if suppressionSide then { s.supp.window with suppressionHalf := some z }
        else { s.supp.window with guardHalf := some z } }

/-- The force request is complete: RELEASING with cause FORCED (R143). -/
def completeForce (z : Zone) (s : State) : State :=
  closeWindow .completed (enterReleasing z .forced (suppNotice z .forced s))

/-- A half of a force request is decided (R143). -/
def decideForce (suppressionSide : Bool) (z : Zone) (s : State) : Decision :=
  let r := s.suppRec z
  let (mine, other) := halves s.supp.window suppressionSide
  if s.supp.window.closesAt.isNone ∨ r.state ≠ .held ∨ r.holds.abort ∨ r.holds.panelHold
      ∨ (other.isSome ∧ other ≠ some z) ∨ (mine.isSome ∧ mine ≠ some z) then .refuse .wrongState []
  else if mine.isSome then .read []
  else if other.isNone then .done .ok (setHalf suppressionSide z s) fun _ => []
  else .done .ok (completeForce z s) (stateReply z)

/-! ### The commands -/

/-- DETECT (R121). -/
def execDetect (p : PortId) (z d : Byte) (s : State) : Host.Outcome State Fault Refusal :=
  request p (.detect z d) (ofZone z (decideDetect d)) s

/-- CLEAR_DETECT (R121). -/
def execClearDetect (p : PortId) (z d : Byte) (s : State) : Host.Outcome State Fault Refusal :=
  request p (.clearDetect z d) (ofZone z (decideClearDetect d)) s

/-- HOLD_ZONE (R127). -/
def execHoldZone (p : PortId) (z : Byte) (s : State) : Host.Outcome State Fault Refusal :=
  request p (.holdZone z) (ofZone z (decidePanelHold true)) s

/-- UNHOLD_ZONE (R127). -/
def execUnholdZone (p : PortId) (z : Byte) (s : State) : Host.Outcome State Fault Refusal :=
  request p (.unholdZone z) (ofZone z (decidePanelHold false)) s

/-- CANCEL (R137). -/
def execCancel (p : PortId) (z : Byte) (s : State) : Host.Outcome State Fault Refusal :=
  request p (.cancel z) (ofZone z decideCancel) s

/-- FORCE_RELEASE (R143). -/
def execForceRelease (p : PortId) (z : Byte) (s : State) : Host.Outcome State Fault Refusal :=
  request p (.forceRelease z) (ofZone z (decideForce true)) s

/-- VENT (R135). -/
def execVent (p : PortId) (z : Byte) (s : State) : Host.Outcome State Fault Refusal :=
  request p (.vent z) (ofZone z decideVent) s

/-- RESTORE (R136). -/
def execRestore (p : PortId) (z : Byte) (s : State) : Host.Outcome State Fault Refusal :=
  request p (.restore z) (ofZone z decideRestore) s

end Sys2Proof.Machine
end

