-- ==== Sys2Proof/Machine/GuardRequests.lean ====
section
/-! DEFINITION. The guard port's requests that write no store: ACK_ALARM (R112), CLEAR_ALARM (R113), RESOLVE_ZONE (R114), VERIFY_ZONE (R22),
REMOVE_OCCUPANT (R23), CONCUR_FORCE (R143) and SWEEP_ALL (R160). -/
namespace Sys2Proof.Machine

/-! ### Alarm keys (R101, R187, R210) -/

/-- The kind a byte codes (R100, R209). -/
def kindArg (b : Byte) : Option AlarmKind :=
  [AlarmKind.panic, .duress, .releaseFault, .loopCut, .loneWorkerOverdue, .doorForced, .tailgate, .unescortedVisitor,
   .lineFault, .doorHeld, .doorFault, .stationOffline, .tamper, .sweepMismatch, .sweepOverdue, .lockDegraded][b.toNat]?

/-- The zone of a key: FFh for NONE, absent for any other byte above Z15. -/
def keyZone (b : Byte) : Option (Option Zone) := if b = 0xFF#8 then some none else (zoneArg b).map some

/-- The subject of a key, absent when its value names nothing (R187, R210). -/
def subjectArg : SubjectArgs → Option Subject
  | .none => some .none
  | .badge b => if badgeOk b then some (.badge b) else none
  | .door v => (doorArg v).map .door
  | .station v =>
    if (v.toNat / 16) % 8 = 0 then some (.station ⟨v.toNat / 128, by omega⟩ ⟨v.toNat % 16, by omega⟩) else none
  | .line v => if h : v.toNat < 66 then some (.line ⟨v.toNat, h⟩) else none
  | .loop v => if h : v.toNat < 2 then some (.loop ⟨v.toNat, h⟩) else none

/-- The record a key names. -/
def findAlarm (k : KeyArgs) (s : State) : Option AlarmRec :=
  match kindArg k.kind, keyZone k.zone, subjectArg k.subject with
  | some kind, some zone, some subject => s.alarms.queue.find? fun r => r.hasKey kind zone subject
  | _, _, _ => none

/-- A record's handling becomes ACKNOWLEDGED, with its notice when it changes (R112). -/
def acknowledge (r : AlarmRec) (s : State) : State :=
  if r.acknowledged then s
  else
    noticeChanged { r with acknowledged := true } .acknowledged
      (touchAlarms { s with alarms.queue :=
        (s.alarms.queue.map fun x => if x.hasKey r.kind r.zone r.subject then { x with acknowledged := true } else x) })

/-- ACK_ALARM is decided (R112); ALL takes the records in queue order (DESIGN CHOICE, log entry 61), and the count of records acknowledged is
one byte (DESIGN CHOICE, log entry 51). -/
def decideAckAlarm (which : AckArgs) (s : State) : Decision :=
  match which with
  | .all =>
    .done .ok
      (let t := s.alarms.queue.foldl (fun u r => acknowledge r u) s
       { t with alarms.overflowMark := false, alarms.overflowCount := 0 })
      fun _ => byte1 (s.alarms.queue.filter fun r => !r.acknowledged).length
  | .key k seen =>
    match findAlarm k s with
    | none => .refuse .badArgument []
    | some r =>
      match seen with
      | some n =>
        if n.toNat = 0 then .refuse .badArgument []
        else if n.toNat = r.raises then .done .ok (acknowledge r s) fun _ => []
        else .refuse .wrongState []
      | none => .done .ok (acknowledge r s) fun _ => []

/-- Removes a record with its CLEARED notice (R113). -/
def clearAlarm (r : AlarmRec) (s : State) : State :=
  noticeChanged r .cleared (touchAlarms { s with alarms.queue := eraseAlarm r s.alarms.queue })

/-- CLEAR_ALARM is decided (R113); ALL takes the records in queue order (DESIGN CHOICE, log entry 61), and the count of records cleared is
one byte (DESIGN CHOICE, log entry 51). -/
def decideClearAlarm (which : ClearArgs) (s : State) : Decision :=
  match which with
  | .all =>
    let old := s.alarms.queue.filter fun r => !r.present
    .done .ok (old.foldl (fun u r => clearAlarm r u) s) fun _ => byte1 old.length
  | .key k =>
    match findAlarm k s with
    | none => .refuse .badArgument []
    | some r => if r.present then .refuse .wrongState [] else .done .ok (clearAlarm r s) fun _ => []

/-! ### RESOLVE_ZONE (R114) -/

/-- The badges whose overdue condition a RESOLVE_ZONE ends. -/
def overdueBadges (keys : List (AlarmKind × Option Zone × Subject)) : List Badge :=
  keys.filterMap fun k => match k.1, k.2.2 with
    | .loneWorkerOverdue, .badge b => some b
    | _, _ => none

/-- The keys of a zone's present distress records, in queue order (R114). -/
def distressKeys (s : State) (z : Zone) : List (AlarmKind × Option Zone × Subject) :=
  presentKeys s fun r => r.kind.distress && r.zone == some z

/-- The taken RESOLVE_ZONE (R114). -/
def resolveZone (z : Zone) (s : State) : State :=
  let keys := distressKeys s z
  let whole := s.latch z
  let s1 := keys.foldl (fun t k => endAlarm k.1 k.2.1 k.2.2 t) s
  let s2 := if whole || overdueBadges keys != [] then overdueResolved z (overdueBadges keys) whole s1 else s1
  if whole then noticeLatchCleared z (s2.setLatch z false) else s2

/-- RESOLVE_ZONE is decided (R114); the count of records ended is one byte (DESIGN CHOICE, log entry 51). -/
def decideResolveZone (z : Zone) (s : State) : Decision :=
  .done .ok (resolveZone z s) fun _ => byte1 (distressKeys s z).length ++ byteFlag (s.latch z)

/-! ### VERIFY_ZONE (R22) and REMOVE_OCCUPANT (R23) -/

/-- Creates anonymous entries at a location (R22). -/
def createAnonymousMany (z : Zone) (loc : Location) : Nat → State → State
  | 0, s => s
  | k + 1, s => createAnonymousMany z loc k (createEntry (anonymousEntry s z loc) s)

/-- The entries VERIFY_ZONE removes: ADMITTED and anonymous (R22). -/
def verifyRemoves (z : Zone) (e : Entry) : Bool := e.zone == z && (e.location == .admitted || !e.badged)

/-- The five parts of VERIFY_ZONE, in order (R22). -/
def verifyCore (z : Zone) (inner vestibule : Nat) (s : State) : State :=
  let s1 : State := { s with pool := (s.pool.filter fun e => !verifyRemoves z e) }
  let s2 := createAnonymousMany z .inner (inner - s.badgedAt z .inner) s1
  let s3 := createAnonymousMany z .vestibule (vestibule - s.badgedAt z .vestibule) s2
  s3.setZone z
    { s3.zone z with headcount := inner, headcountValid := true, reasons := ReasonSet.empty, late := ReasonSet.empty }

/-- VERIFY_ZONE removes or creates an entry (R12, R22). -/
def verifyTouches (z : Zone) (inner vestibule : Nat) (s : State) : Bool :=
  s.pool.any (verifyRemoves z) || s.badgedAt z .inner < inner || s.badgedAt z .vestibule < vestibule

/-- The tests of VERIFY_ZONE in order; absent when all pass (R22). -/
def verifyTest (z : Zone) (inner vestibule : Nat) (s : State) : Option Status :=
  let bi := s.badgedAt z .inner
  let bv := s.badgedAt z .vestibule
  let freed := (s.pool.filter (verifyRemoves z)).length
  if ¬ (doorAtRest s (outerDoor z) && doorAtRest s (innerDoor z)) then some .wrongState
  else if inner < bi ∨ vestibule < bv then some .rosterConflict
  else if (s.cfg z).cap < inner + vestibule ∨ freed + s.freeSlots < (inner - bi) + (vestibule - bv) then some .rosterFull
  else none

/-- VERIFY_ZONE is decided (R22); the reply carries the generation and certainty its own claim leaves. -/
def decideVerifyZone (inner vestibule : Byte) (z : Zone) (s : State) : Decision :=
  match verifyTest z inner.toNat vestibule.toNat s with
  | some st => .refuse st []
  | none =>
    let touched := verifyTouches z inner.toNat vestibule.toNat s
    let own := endClaim touched z s (verifyCore z inner.toNat vestibule.toNat s)
    .done .ok (claimWith touched z (verifyCore z inner.toNat vestibule.toNat) s)
      fun _ => byte2 (own.zone z).generation.toNat ++ byte1 (own.certainty z).code

/-- REMOVE_OCCUPANT is decided (R23, R187). -/
def decideRemoveOccupant (b : Badge) (s : State) : Decision :=
  if !badgeOk b then .refuse .badArgument []
  else match s.entryOfBadge b with
    | none => .refuse .badArgument []
    | some e => .done .ok (removeEntries e.zone (fun x => x.number == e.number) s) fun _ => []

/-! ### SWEEP_ALL (R160) -/

/-- A list of zones as a reply carries it. -/
def zoneList (l : List Zone) : List Byte := byteList (fun (z : Zone) => byte1 z.val) l

/-- SWEEP_ALL is decided (R160). -/
def decideSweepAll (s : State) : Decision :=
  let failed := (sweepAllZones s).filter fun z => !sweepableAside s z
  if s.sweep.inProgress.isSome ∨ s.sweep.allList.isSome then .refuse .wrongState []
  else if failed ≠ [] then .refuse .notSweepable (zoneList failed)
  else .done .ok (startSweepAll s) fun _ => zoneList (sweepAllZones s)

/-! ### The commands -/

/-- ACK_ALARM (R112). -/
def execAckAlarm (p : PortId) (which : AckArgs) (s : State) : Host.Outcome State Fault Refusal :=
  request p (.ackAlarm which) (decideAckAlarm which) s

/-- CLEAR_ALARM (R113). -/
def execClearAlarm (p : PortId) (which : ClearArgs) (s : State) : Host.Outcome State Fault Refusal :=
  request p (.clearAlarm which) (decideClearAlarm which) s

/-- RESOLVE_ZONE (R114). -/
def execResolveZone (p : PortId) (z : Byte) (s : State) : Host.Outcome State Fault Refusal :=
  request p (.resolveZone z) (ofZone z decideResolveZone) s

/-- VERIFY_ZONE (R22). -/
def execVerifyZone (p : PortId) (z inner vestibule : Byte) (s : State) : Host.Outcome State Fault Refusal :=
  request p (.verifyZone z inner vestibule) (ofZone z (decideVerifyZone inner vestibule)) s

/-- REMOVE_OCCUPANT (R23). -/
def execRemoveOccupant (p : PortId) (b : Badge) (s : State) : Host.Outcome State Fault Refusal :=
  request p (.removeOccupant b) (decideRemoveOccupant b) s

/-- CONCUR_FORCE (R143). -/
def execConcurForce (p : PortId) (z : Byte) (s : State) : Host.Outcome State Fault Refusal :=
  request p (.concurForce z) (ofZone z (decideForce false)) s

/-- SWEEP_ALL (R160). -/
def execSweepAll (p : PortId) (s : State) : Host.Outcome State Fault Refusal := request p .sweepAll decideSweepAll s

end Sys2Proof.Machine
end

