-- ==== Sys2Proof/Machine/StoreWrites.lean ====
section
/-! DEFINITION. The requests that write the store (R200 to R202): what each tests, whether its value is already held, the image its write
begins and what its commit does; STORE_COMMIT. Each request is tested when taken and again at its commit, without STORE_BUSY (R202). -/
namespace Sys2Proof.Machine

/-! ### Store images -/

/-- The control record's write begins (R202). -/
def beginControl (new : ControlRec) (s : State) : State := { s with store.control := s.store.control.beginWrite new }

/-- The control record's commit (R198, R202). -/
def commitControl (new : ControlRec) (s : State) : State :=
  { s with store.control := s.store.control.commitWrite ControlRec.bytes new }

/-- The part record's write begins. -/
def beginPart (new : PartRec) (s : State) : State := { s with store.part := s.store.part.beginWrite new }

/-- The part record's commit. -/
def commitPart (new : PartRec) (s : State) : State := { s with store.part := s.store.part.commitWrite PartRec.bytes new }

/-- A zone record's write begins. -/
def beginZone (z : Zone) (new : ZoneCfg) (s : State) : State :=
  { s with store.zones := put s.store.zones z ((s.storedZone z).beginWrite new) }

/-- A zone record's commit. -/
def commitZone (z : Zone) (new : ZoneCfg) (s : State) : State :=
  { s with store.zones := put s.store.zones z ((s.storedZone z).commitWrite ZoneCfg.bytes new) }

/-! ### WRITE_SCHEDULE (R85) -/

/-- A window within its ranges (R84, R85); bit 7 of the day set names no day (log entry 15). -/
def WindowArgs.ok (w : WindowArgs) : Bool :=
  w.days != 0 && !w.days.getLsbD 7 && w.start.toNat ≤ 1439 && 1 ≤ w.stop.toNat && w.stop.toNat ≤ 1440
    && w.start.toNat < w.stop.toNat

/-- The windows written. -/
def scheduleOf (ws : List WindowArgs) : List Window := ws.map fun w => ⟨w.days, w.start.toNat, w.stop.toNat⟩

/-- The tests of WRITE_SCHEDULE but for the store's (R85). -/
def scheduleTest (ws : List WindowArgs) : Option Status :=
  if 16 < ws.length ∨ ws.any (fun w => !WindowArgs.ok w) then some .badArgument else none

/-- The part record with the schedule written. -/
def scheduleImage (ws : List WindowArgs) (s : State) : PartRec := { s.partCfg with schedule := scheduleOf ws }

/-- The commit of WRITE_SCHEDULE (R85). -/
def commitSchedule (ws : List WindowArgs) (s : State) : State :=
  evaluateHours .writeSchedule { commitPart (scheduleImage ws s) s with hours.schedule := scheduleOf ws }

/-! ### WRITE_PASSAGE_CONFIG (R200, R201) -/

/-- A number within a range, when carried. -/
def inRange (lo hi : Nat) : Option Nat → Bool
  | some n => lo ≤ n && n ≤ hi
  | none => true

/-- A byte field as a number. -/
def byteNum (b : Option Byte) : Option Nat := b.map (·.toNat)

/-- A two-byte field as a number. -/
def halfNum (h : Option Half) : Option Nat := h.map (·.toNat)

/-- The part form's fields lie within their ranges, and it names one (R198, R200). -/
def PartFields.ok (f : PartFields) : Bool :=
  (f.releaseWindow.isSome || f.heldOpenLimit.isSome || f.pairingWindow.isSome || f.sweepInterval.isSome || f.loopRate.isSome)
    && inRange 3 30 (byteNum f.releaseWindow) && inRange 10 300 (halfNum f.heldOpenLimit)
    && inRange 10 120 (byteNum f.pairingWindow) && inRange 15 600 (halfNum f.sweepInterval)
    && inRange 0 1 (byteNum f.loopRate)

/-- The part record with the fields carried. -/
def partImage (f : PartFields) (s : State) : PartRec :=
  let r := s.partCfg
  { r with releaseWindow := (byteNum f.releaseWindow).getD r.releaseWindow,
           heldOpenLimit := (halfNum f.heldOpenLimit).getD r.heldOpenLimit,
           pairingWindow := (byteNum f.pairingWindow).getD r.pairingWindow,
           sweepInterval := (halfNum f.sweepInterval).getD r.sweepInterval,
           fastLoop := ((byteNum f.loopRate).map (· == 1)).getD r.fastLoop }

/-- A structural field is carried (R201). -/
def ZoneFields.structural (f : ZoneFields) : Bool :=
  f.outerRail.isSome || f.innerRail.isSome || f.outerConfigured.isSome || f.innerConfigured.isSome || f.travelLimit.isSome

/-- The zone form's fields lie within their ranges, and it names one (R199, R200). -/
def ZoneFields.ok (f : ZoneFields) : Bool :=
  (ZoneFields.structural f || f.cap.isSome || f.pinAfterHours.isSome || f.loneInterval.isSome)
    && inRange 0 1 (byteNum f.outerRail) && inRange 0 1 (byteNum f.innerRail) && inRange 0 1 (byteNum f.outerConfigured)
    && inRange 0 1 (byteNum f.innerConfigured) && inRange 1 24 (byteNum f.cap) && inRange 0 1 (byteNum f.pinAfterHours)
    && inRange 200 2000 (halfNum f.travelLimit) && inRange 5 60 (byteNum f.loneInterval)

/-- A rail from its code, A 0 and B 1. -/
def railArg (n : Nat) : Rail := if n = 1 then .b else .a

/-- The zone record with the fields carried. -/
def zoneImage (z : Zone) (f : ZoneFields) (s : State) : ZoneCfg :=
  let r := s.cfg z
  { r with outerRail := ((byteNum f.outerRail).map railArg).getD r.outerRail,
           innerRail := ((byteNum f.innerRail).map railArg).getD r.innerRail,
           outerConfigured := ((byteNum f.outerConfigured).map (· == 1)).getD r.outerConfigured,
           innerConfigured := ((byteNum f.innerConfigured).map (· == 1)).getD r.innerConfigured,
           cap := (byteNum f.cap).getD r.cap,
           pinAfterHours := ((byteNum f.pinAfterHours).map (· == 1)).getD r.pinAfterHours,
           travelLimit := (halfNum f.travelLimit).getD r.travelLimit,
           loneInterval := (byteNum f.loneInterval).getD r.loneInterval }

/-- The conditions of R201 for a structural field. -/
def structuralAllowed (s : State) (z : Zone) : Bool :=
  !(s.zone z).inService && (s.door (outerDoor z)).release.isNone && (s.door (innerDoor z)).release.isNone

/-- The tests of WRITE_PASSAGE_CONFIG but for the store's (R200, R21, R201). -/
def passageTest (form : PassageForm) (s : State) : Option Status :=
  match form with
  | .part f => if PartFields.ok f then none else some .badArgument
  | .zone zb f =>
    match zoneArg zb with
    | none => some .badArgument
    | some z =>
      if !ZoneFields.ok f then some .badArgument
      else if (match f.cap with
          | some c => c.toNat < (s.roster z).length
          | none => false) || (ZoneFields.structural f && !structuralAllowed s z) then some .wrongState
      else none

/-- The write of WRITE_PASSAGE_CONFIG begins. -/
def beginPassage (form : PassageForm) (s : State) : State :=
  match form with
  | .part f => beginPart (partImage f s) s
  | .zone zb f =>
    match zoneArg zb with
    | some z => beginZone z (zoneImage z f s) s
    | none => s

/-- The doors of a zone whose configured station a new record leaves out (R165). -/
def stationsLeft (z : Zone) (new : ZoneCfg) (s : State) : List DoorId :=
  [outerDoor z, innerDoor z].filter fun d => (s.slot (loopOf z) (slotOf d)).configured && !new.stationConfigured d

/-- The commit of WRITE_PASSAGE_CONFIG: the slots follow changed station flags (R165, R201), the outer station's before the inner's
(DESIGN CHOICE, log entry 64). -/
def commitPassage (form : PassageForm) (s : State) : State :=
  match form with
  | .part f => commitPart (partImage f s) s
  | .zone zb f =>
    match zoneArg zb with
    | some z =>
      let new := zoneImage z f s
      endAbsent (stationsLeft z new s)
        (reconfigureSlot (innerDoor z) new.innerConfigured
          (reconfigureSlot (outerDoor z) new.outerConfigured (commitZone z new s)))
    | none => s

/-! ### WRITE_SUPPRESSION_CONFIG (R146), ISOLATE and DEISOLATE (R138, R140) -/

/-- The fields lie within their ranges, and the resume value is not above the pre-discharge time, each as written or as stored
(R146). The mask may name no field: R146 has no test for it. -/
def SuppressionFields.ok (f : SuppressionFields) (c : ZoneCfg) : Bool :=
  inRange 1 3 (byteNum f.coincidence) && inRange 10 120 (byteNum f.preDischarge) && inRange 5 30 (byteNum f.resume)
    && inRange 2 30 (byteNum f.confirmTime) && inRange 60 3600 (halfNum f.soakTime)
    && (byteNum f.resume).getD c.resume ≤ (byteNum f.preDischarge).getD c.preDischarge

/-- The zone record with the suppression fields carried. -/
def suppressionImage (z : Zone) (f : SuppressionFields) (s : State) : ZoneCfg :=
  let r := s.cfg z
  { r with coincidence := (byteNum f.coincidence).getD r.coincidence,
           preDischarge := (byteNum f.preDischarge).getD r.preDischarge,
           resume := (byteNum f.resume).getD r.resume,
           confirmTime := (byteNum f.confirmTime).getD r.confirmTime,
           soakTime := (halfNum f.soakTime).getD r.soakTime }

/-- The tests of WRITE_SUPPRESSION_CONFIG but for the store's (R146). -/
def suppressionTest (zb : Byte) (f : SuppressionFields) (s : State) : Option Status :=
  match zoneArg zb with
  | none => some .badArgument
  | some z =>
    if !SuppressionFields.ok f (s.cfg z) then some .badArgument
    else if (s.suppRec z).state = .normal ∨ (s.suppRec z).state = .isolated then none
    else some .wrongState

/-- The tests of ISOLATE but for the store's (R138). -/
def isolateTest (zb : Byte) (s : State) : Option Status :=
  match zoneArg zb with
  | none => some .badArgument
  | some z => if (s.suppRec z).state = .normal ∨ (s.suppRec z).state = .alert then none else some .wrongState

/-- The tests of DEISOLATE but for the store's (R140). -/
def deisolateTest (zb : Byte) (s : State) : Option Status :=
  match zoneArg zb with
  | none => some .badArgument
  | some z => if (s.suppRec z).state = .isolated then none else some .wrongState

/-- The control record with a zone's isolation flag written. -/
def isolationImage (z : Zone) (b : Bool) (s : State) : ControlRec := { s.control with isolation := put s.control.isolation z b }

/-- The commit of ISOLATE (R138). -/
def commitIsolate (z : Zone) (s : State) : State :=
  setSuppState z { s.suppRec z with state := .isolated } (suppNotice z .isolate (commitControl (isolationImage z true s) s))

/-- The commit of DEISOLATE: a set at the coincidence count confirms the zone in the same step (R140). -/
def commitDeisolate (z : Zone) (s : State) : State :=
  let r := s.suppRec z
  let s1 := suppNotice z .deisolate (commitControl (isolationImage z false s) s)
  let s2 := s1.setSuppRec z { r with pullSeen := false, state := if r.detectors = [] then .normal else .alert }
  if (s.cfg z).coincidence ≤ r.detectors.length then confirmZone z s2 else s2

/-! ### LOCKDOWN and END_LOCKDOWN (R45), EXCLUDE_SWEEP and INCLUDE_SWEEP (R161) -/

/-- The zones a zone-or-ALL names, absent when it names none (R45). -/
def zonesNamed : ZoneOrAll → Option (List Zone)
  | .all => some allZones
  | .zone b => (zoneArg b).map fun z => [z]

/-- The zones named whose lockdown flag differs from the value requested (R45). -/
def lockdownZones (which : ZoneOrAll) (b : Bool) (s : State) : List Zone :=
  ((zonesNamed which).getD []).filter fun z => s.lockdownFlag z != b

/-- The control record with the lockdown flags written. -/
def lockdownImage (zs : List Zone) (b : Bool) (s : State) : ControlRec :=
  { s.control with lockdown := zs.foldl (fun v z => put v z b) s.control.lockdown }

/-- The effects of LOCKDOWN on a zone whose flag was clear; `normal` when its policy was NORMAL (R43, R45, R61, R97). LOCKDOWN goes to the
two readers whatever the state of their doors, UNVERIFIED ones too (DESIGN CHOICE, log entry 52). -/
def lockZone (z : Zone) (normal : Bool) (s : State) : State :=
  let s1 := if normal then clearPairing z .pairCleared false (supersede z false (cutZone z s)) else s
  (s1.indicate z .corridor .lockdown).indicate z .vestibule .lockdown

/-- The commit of LOCKDOWN (R45); of ALL, the zones are taken from Z0 to Z15 (DESIGN CHOICE, log entry 59). -/
def commitLockdown (which : ZoneOrAll) (s : State) : State :=
  let zs := lockdownZones which true s
  zs.foldl (fun t z => lockZone z (!s.egressOnly z) t) (commitControl (lockdownImage zs true s) s)

/-- The effects of END_LOCKDOWN on a zone whose flag was set (R45). IDLE goes to the two readers whatever the state of their doors,
UNVERIFIED ones too (DESIGN CHOICE, log entry 52). -/
def unlockZone (z : Zone) (s : State) : State :=
  if s.egressOnly z then s else (s.indicate z .corridor .idle).indicate z .vestibule .idle

/-- The commit of END_LOCKDOWN (R45); of ALL, the zones are taken from Z0 to Z15 (DESIGN CHOICE, log entry 59). -/
def commitEndLockdown (which : ZoneOrAll) (s : State) : State :=
  let zs := lockdownZones which false s
  zs.foldl (fun t z => unlockZone z t) (commitControl (lockdownImage zs false s) s)

/-- The control record with a zone's sweep exclusion flag written (R161). -/
def exclusionImage (z : Zone) (b : Bool) (s : State) : ControlRec := { s.control with excluded := put s.control.excluded z b }

/-! ### SET_SERVICE (R24) and ENABLE_FORCE_CHORD (R142) -/

/-- The direction of SET_SERVICE: IN (0) is true, OUT (1) false (R24, R209). -/
def directionArg (b : Byte) : Option Bool := (flagArg b).map fun out => !out

/-- The tests of OUT but for the store's (R24). -/
def serviceTest (z : Zone) (toService : Bool) (s : State) : Option Status :=
  let st := (s.suppRec z).state
  if !toService && (s.roster z != [] || s.certainty z != .empty || (st != .normal && st != .isolated)
      || s.alarms.queue.any fun r => r.present && r.zone == some z) then some .wrongState
  else none

/-- The control record with a zone's service flag written. -/
def serviceImage (z : Zone) (b : Bool) (s : State) : ControlRec := { s.control with service := put s.control.service z b }

/-- The roster unit's part of SET_SERVICE (R24). -/
def serviceClaim (z : Zone) (b : Bool) (s : State) : State :=
  endClaim false z s
    (if b then s.setZone z { s.zone z with inService := true }
     else
       let t := dropPairing z s
       t.setZone z { t.zone z with inService := false, deferrals := 0 })

/-- The commit of SET_SERVICE with the door and passage units' part (R24, R43, R61). -/
def commitService (z : Zone) (b : Bool) (s : State) : State :=
  let s1 := serviceClaim z b (commitControl (serviceImage z b s) s)
  if b then s1
  else
    let s2 := if (s.zone z).pairing.isSome then s1.indicate z .corridor .denied else s1
    supersede z true (if s.egressOnly z then s2 else cutZone z s2)

/-- The commit of ENABLE_FORCE_CHORD: a DISABLE closes an open window (R142). -/
def commitForceChord (enable : Bool) (s : State) : State :=
  let s1 := commitControl { s.control with forceChord := enable } s
  if !enable && s1.supp.window.closesAt.isSome then closeWindow .disabled s1 else s1

/-! ### The parts of a write, by request -/

/-- The tests made before the value held is looked at (R45, R161, R24, R142). -/
def writeArgument (r : Request) : Option Status :=
  match r with
  | .lockdown w | .endLockdown w => if (zonesNamed w).isSome then none else some .badArgument
  | .excludeSweep z | .includeSweep z => if (zoneArg z).isSome then none else some .badArgument
  | .setService z d => if (zoneArg z).isSome && (directionArg d).isSome then none else some .badArgument
  | .enableForceChord v => if (flagArg v).isSome then none else some .badArgument
  | _ => none

/-- The value requested is already held, so that no write is made (R24, R45, R142, R161). -/
def writeHeld (r : Request) (s : State) : Bool :=
  match r with
  | .lockdown w => (lockdownZones w true s).isEmpty
  | .endLockdown w => (lockdownZones w false s).isEmpty
  | .excludeSweep z => (zoneArg z).any fun k => s.excludedFlag k
  | .includeSweep z => (zoneArg z).any fun k => !s.excludedFlag k
  | .setService z d => (zoneArg z).any fun k => directionArg d == some (s.zone k).inService
  | .enableForceChord v => (flagArg v).any fun off => s.control.forceChord == !off
  | _ => false

/-- The tests of the request's rule, but for the store's. -/
def writeTest (r : Request) (s : State) : Option Status :=
  match r with
  | .writeSchedule ws => scheduleTest ws
  | .writePassageConfig form => passageTest form s
  | .writeSuppressionConfig z f => suppressionTest z f s
  | .isolate z => isolateTest z s
  | .deisolate z => deisolateTest z s
  | .setService z d =>
    match zoneArg z, directionArg d with
    | some k, some b => serviceTest k b s
    | _, _ => none
  | _ => none

/-- The write begins: the record's new image goes to the copy not in use (R198, R202). -/
def writeBegin (r : Request) (s : State) : State :=
  match r with
  | .writeSchedule ws => beginPart (scheduleImage ws s) s
  | .writePassageConfig form => beginPassage form s
  | .writeSuppressionConfig z f => ((zoneArg z).map fun k => beginZone k (suppressionImage k f s) s).getD s
  | .isolate z => ((zoneArg z).map fun k => beginControl (isolationImage k true s) s).getD s
  | .deisolate z => ((zoneArg z).map fun k => beginControl (isolationImage k false s) s).getD s
  | .lockdown w => beginControl (lockdownImage (lockdownZones w true s) true s) s
  | .endLockdown w => beginControl (lockdownImage (lockdownZones w false s) false s) s
  | .excludeSweep z => ((zoneArg z).map fun k => beginControl (exclusionImage k true s) s).getD s
  | .includeSweep z => ((zoneArg z).map fun k => beginControl (exclusionImage k false s) s).getD s
  | .setService z d =>
    match zoneArg z, directionArg d with
    | some k, some b => beginControl (serviceImage k b s) s
    | _, _ => s
  | .enableForceChord v => beginControl { s.control with forceChord := flagArg v == some false } s
  | _ => s

/-- The commit of the request held (R202). -/
def writeCommit (r : Request) (s : State) : State :=
  match r with
  | .writeSchedule ws => commitSchedule ws s
  | .writePassageConfig form => commitPassage form s
  | .writeSuppressionConfig z f => ((zoneArg z).map fun k => commitZone k (suppressionImage k f s) s).getD s
  | .isolate z => ((zoneArg z).map fun k => commitIsolate k s).getD s
  | .deisolate z => ((zoneArg z).map fun k => commitDeisolate k s).getD s
  | .lockdown w => commitLockdown w s
  | .endLockdown w => commitEndLockdown w s
  | .excludeSweep z => ((zoneArg z).map fun k => commitControl (exclusionImage k true s) s).getD s
  | .includeSweep z => ((zoneArg z).map fun k => commitControl (exclusionImage k false s) s).getD s
  | .setService z d =>
    match zoneArg z, directionArg d with
    | some k, some b => commitService k b s
    | _, _ => s
  | .enableForceChord v => commitForceChord (flagArg v == some false) s
  | _ => s

/-- The payload of the reply at the commit (R85, R140). -/
def writeReply (r : Request) (t : State) : List Byte :=
  match r with
  | .writeSchedule _ => byte1 t.hours.state.code
  | .deisolate z => ((zoneArg z).map fun k => stateReply k t).getD []
  | _ => []

/-- A request that writes the store is decided (R202): its tests, the value held, STORE_BUSY, and the write. -/
def decideWrite (r : Request) (s : State) : Decision :=
  match writeArgument r with
  | some st => .refuse st []
  | none =>
    if writeHeld r s then .read []
    else match writeTest r s with
      | some st => .refuse st []
      | none => if s.store.write.isSome then .refuse .storeBusy [] else .write (writeBegin r s)

/-- The commit of a held request: its tests are made again, without STORE_BUSY (R202). -/
def commitHeld (p : PortId) (r : Request) (s : State) : State :=
  let s1 : State := { s with store.write := none }
  match writeTest r s1 with
  | some st => placeReply p r st [] s1
  | none =>
    let t := finishRequest s (writeCommit r s1)
    placeReply p r .ok (writeReply r t) t

/-! ### The commands -/

/-- STORE_COMMIT (R202). -/
def execStoreCommit (s : State) : Host.Outcome State Fault Refusal :=
  match s.store.write with
  | some w =>
    match (s.port w.port).slot with
    | some r => .next (commitHeld w.port r s)
    | none => .next { s with store.write := none }
  | none => .next s

/-- WRITE_SCHEDULE (R85). -/
def execWriteSchedule (p : PortId) (ws : List WindowArgs) (s : State) : Host.Outcome State Fault Refusal :=
  request p (.writeSchedule ws) (decideWrite (.writeSchedule ws)) s

/-- WRITE_PASSAGE_CONFIG (R200). -/
def execWritePassageConfig (p : PortId) (form : PassageForm) (s : State) : Host.Outcome State Fault Refusal :=
  request p (.writePassageConfig form) (decideWrite (.writePassageConfig form)) s

/-- ISOLATE (R138). -/
def execIsolate (p : PortId) (z : Byte) (s : State) : Host.Outcome State Fault Refusal :=
  request p (.isolate z) (decideWrite (.isolate z)) s

/-- DEISOLATE (R140). -/
def execDeisolate (p : PortId) (z : Byte) (s : State) : Host.Outcome State Fault Refusal :=
  request p (.deisolate z) (decideWrite (.deisolate z)) s

/-- WRITE_SUPPRESSION_CONFIG (R146). -/
def execWriteSuppressionConfig (p : PortId) (z : Byte) (f : SuppressionFields) (s : State) :
    Host.Outcome State Fault Refusal :=
  request p (.writeSuppressionConfig z f) (decideWrite (.writeSuppressionConfig z f)) s

/-- LOCKDOWN (R45). -/
def execLockdown (p : PortId) (which : ZoneOrAll) (s : State) : Host.Outcome State Fault Refusal :=
  request p (.lockdown which) (decideWrite (.lockdown which)) s

/-- END_LOCKDOWN (R45). -/
def execEndLockdown (p : PortId) (which : ZoneOrAll) (s : State) : Host.Outcome State Fault Refusal :=
  request p (.endLockdown which) (decideWrite (.endLockdown which)) s

/-- EXCLUDE_SWEEP (R161). -/
def execExcludeSweep (p : PortId) (z : Byte) (s : State) : Host.Outcome State Fault Refusal :=
  request p (.excludeSweep z) (decideWrite (.excludeSweep z)) s

/-- INCLUDE_SWEEP (R161). -/
def execIncludeSweep (p : PortId) (z : Byte) (s : State) : Host.Outcome State Fault Refusal :=
  request p (.includeSweep z) (decideWrite (.includeSweep z)) s

/-- SET_SERVICE (R24). -/
def execSetService (p : PortId) (z direction : Byte) (s : State) : Host.Outcome State Fault Refusal :=
  request p (.setService z direction) (decideWrite (.setService z direction)) s

/-- ENABLE_FORCE_CHORD (R142). -/
def execEnableForceChord (p : PortId) (v : Byte) (s : State) : Host.Outcome State Fault Refusal :=
  request p (.enableForceChord v) (decideWrite (.enableForceChord v)) s

end Sys2Proof.Machine
end

