-- ==== Sys2Proof/Machine/StartUp.lean ====
section
/-! DEFINITION. Reset and start-up: RESET (R203, R205), RECORD_LOAD (R205) and the end of start-up (R206). -/
namespace Sys2Proof.Machine

/-- The store at a reset: the copies stay as they stand, a write in progress is forestalled (R203). -/
def resetStore (x : Store) : Store :=
  { part := x.part.unload PartRec.default, zones := x.zones.map fun r => r.unload ZoneCfg.default,
    control := x.control.unload ControlRec.default, write := none, defaultedMark := false }

/-- RESET (R205): the waiting commands and the levels the lines present stay (log entries 9 and 27). -/
def execReset (s : State) : Host.Outcome State Fault Refusal :=
  .next (State.afterReset s.pending (resetStore s.store) (s.lines.table.map (·.candidate)))

/-- The control record as it stands, or, while it is not loaded, as its load will take it (R205). -/
def controlInForce (s : State) : Stored ControlRec :=
  if s.store.control.loaded then s.store.control else Stored.load ControlRec.bytes ControlRec.default s.store.control

/-- A defaulted zone's service flag is written OUT_OF_SERVICE in the control record (R205), whatever it reads. That the write is made in the
step of the zone's load is the model's choice (DESIGN CHOICE, log entry 29): while the record is not loaded its copies take the write,
and its load finds them; where neither copy was good its mark of being defaulted stands for that load. -/
def writeOutOfService (z : Zone) (s : State) : State :=
  let x := controlInForce s
  let y := x.commitWrite ControlRec.bytes { x.value with service := put x.value.service z false }
  { s with
    store.control :=
      if s.store.control.loaded then y
      else { s.store.control with first := y.first, second := y.second, defaulted := y.defaulted } }

/-- The load of one record (R205). -/
def loadRecord (r : RecordId) (s : State) : State :=
  match r with
  | .part =>
    let x := Stored.load PartRec.bytes PartRec.default s.store.part
    { s with store.part := x, store.defaultedMark := s.store.defaultedMark || x.defaulted }
  | .zone z =>
    let x := Stored.load ZoneCfg.bytes ZoneCfg.default (s.storedZone z)
    let s1 : State := { s with store.zones := put s.store.zones z x }
    if x.defaulted then writeOutOfService z s1 else s1
  | .control =>
    let x := Stored.load ControlRec.bytes ControlRec.default s.store.control
    { s with store.control := x, store.defaultedMark := s.store.defaultedMark || x.defaulted }

/-- Whether a record has been loaded since the reset. -/
def recordLoaded (s : State) : RecordId → Bool
  | .part => s.store.part.loaded
  | .zone z => (s.storedZone z).loaded
  | .control => s.store.control.loaded

/-- Every record is loaded (R206). -/
def allLoaded (s : State) : Bool :=
  s.store.part.loaded && s.store.control.loaded && allZones.all fun z => (s.storedZone z).loaded

/-- A slot as start-up leaves it, from its station configured flag (R165, R206). -/
def startSlot (s : State) (d : DoorId) : Slot :=
  let on := (s.cfg (zoneOf d)).stationConfigured d
  { Slot.reset with configured := on, online := if on then .offline else .absent }

/-- A loop as start-up leaves it: RUNNING, the poll round at address 1 (R163, R168). -/
def startLoop (s : State) (l : LoopId) : Loop :=
  { state := .running, slots := allSlots.foldl (fun v a => put v a (startSlot s (doorAt l a))) (s.loop l).slots,
    queue := [], lastPolled := 0, exchange := none, sent := [] }

/-- One zone's working values at the end of start-up (R206). -/
def startZone (s : State) (z : Zone) : State :=
  let s1 := s.setZone z { s.zone z with inService := nth s.control.service z }
  s1.setSuppRec z { s1.suppRec z with state := if s1.isolationFlag z then .isolated else .normal }

/-- Four entries of this moment (R53). -/
def fullHistory (s : State) : List Nat := [s.now, s.now, s.now, s.now]

/-- The end of start-up (R206). -/
def endStartUp (s : State) : State :=
  let s1 := allZones.foldl startZone s
  let s2 := (s1.setLoop 0 (startLoop s1 0)).setLoop 1 (startLoop s1 1)
  { s2 with
    started := true, hours.schedule := s2.partCfg.schedule, loops.fastRate := s2.partCfg.fastLoop,
    sweep.timer := some (s2.now + s2.partCfg.sweepInterval * 1000),
    doors.railA := { s2.doors.railA with history := fullHistory s2 },
    doors.railB := { s2.doors.railB with history := fullHistory s2 } }

/-- The step of a record's load: start-up ends when it was the last (R205, R206). -/
def loadStep (r : RecordId) (s : State) : State :=
  let s1 := loadRecord r s
  if allLoaded s1 then endStartUp s1 else s1

/-- RECORD_LOAD (R205). -/
def execRecordLoad (r : RecordId) (s : State) : Host.Outcome State Fault Refusal :=
  event (!s.started && !recordLoaded s r) (loadStep r) s

end Sys2Proof.Machine
end

