-- ==== Sys2Proof/Machine/Timers.lean ====
section
/-! DEFINITION. The timer events of the passage, door, hours, suppression and sweep units, and the commands of the field loops. Each acts
only when its deadline has been reached; otherwise its occasion is gone and it finds nothing to do (log entry 3). -/
namespace Sys2Proof.Machine

/-! ### The field loops -/

/-- LOOP_EXCHANGE (R168): a RUNNING loop with no exchange in progress begins one. -/
def execLoopExchange (l : LoopId) (s : State) : Host.Outcome State Fault Refusal :=
  event ((s.loop l).state == .running && (s.loop l).exchange.isNone) (beginExchange l) s

/-- A reply to the exchange in progress (R171): an invalid one is a miss (R166). -/
def stationReplied (l : LoopId) (bytes : List Byte) (s : State) : State :=
  match (s.loop l).exchange with
  | some x =>
    match validReply x bytes with
    | some f => takeReply l x f s
    | none => missExchange l x s
  | none => s

/-- STATION_REPLY (R171). -/
def execStationReply (l : LoopId) (bytes : List Byte) (s : State) : Host.Outcome State Fault Refusal :=
  event ((s.loop l).exchange.isSome) (stationReplied l bytes) s

/-- The reply window closed with no reply (R166). -/
def windowMissed (l : LoopId) (s : State) : State :=
  match (s.loop l).exchange with
  | some x => missExchange l x s
  | none => s

/-- REPLY_WINDOW_MISS (R166). -/
def execReplyWindowMiss (l : LoopId) (s : State) : Host.Outcome State Fault Refusal :=
  event ((s.loop l).exchange.isSome) (windowMissed l) s

/-- LOOP_BREAK (R164). -/
def execLoopBreak (l : LoopId) (s : State) : Host.Outcome State Fault Refusal :=
  event ((s.loop l).state == .running) (cutLoop l) s

/-- LOOP_RESTORED (R164). -/
def execLoopRestored (l : LoopId) (s : State) : Host.Outcome State Fault Refusal :=
  event ((s.loop l).state == .cut) (restoreLoop l) s

/-! ### Passage -/

/-- The query an id names, once it is 750 ms old (R60). -/
def lateQuery (s : State) (id : Byte) : Option Query :=
  s.passage.queries.find? fun q => q.id == id && q.raisedAt + Config.queryTimeoutMs ≤ s.now

/-- QUERY_TIMEOUT (R60). -/
def execQueryTimeout (id : Byte) (s : State) : Host.Outcome State Fault Refusal :=
  event (lateQuery s id).isSome
    (fun t => match lateQuery t id with
      | some q => timeoutQuery q t
      | none => t) s

/-- CACHE_EXPIRY (R62). -/
def execCacheExpiry (b : Badge) (s : State) : Host.Outcome State Fault Refusal :=
  event (s.passage.cache.any fun e => e.badge == b && e.expiresAt ≤ s.uptime) (cacheRemove b) s

/-! ### Doors and rails -/

/-- SETTLE_END (R30). -/
def execSettleEnd (d : DoorId) (s : State) : Host.Outcome State Fault Refusal :=
  event (s.reached (s.door d).settleEnds)
    (fun t => evaluateZone (zoneOf d) (t.setDoor d { t.door d with settleEnds := none })) s

/-- A non-egress release has stood QUEUED for 10 s (R32). -/
def waitExpired (s : State) (d : DoorId) : Bool :=
  (s.door d).state == .queued && match (s.door d).release with
    | some r => r.kind != .egress && r.queuedAt + Config.queuedLimitMs ≤ s.now
    | none => false

/-- QUEUED_WAIT_EXPIRY (R32). -/
def execQueuedWaitExpiry (d : DoorId) (s : State) : Host.Outcome State Fault Refusal :=
  event (waitExpired s d) (endQueued d .waitExpired) s

/-- RAIL_ROOM (R50): while the rail has room its queue's head begins its withdrawal. -/
def execRailRoom (r : Rail) (s : State) : Host.Outcome State Fault Refusal :=
  event (s.started && s.railHasRoom r) (startHeads r Config.railBudget) s

/-- BOLT_TIMER_EXPIRY (R33, R37). -/
def execBoltTimerExpiry (d : DoorId) (s : State) : Host.Outcome State Fault Refusal :=
  event (s.reached (s.door d).boltTimer && ((s.door d).state == .withdrawing || (s.door d).state == .throwing))
    (enterFault d none) s

/-- The window deadline of a door's release. -/
def State.windowDeadline (s : State) (d : DoorId) : Option Nat := (s.door d).release.bind (·.window)

/-- The window lapses: the release ends LAPSED when the door secures, and its group is handed on (R36). -/
def lapseWindow (d : DoorId) (s : State) : State :=
  let x := s.door d
  (enterThrowing d (s.setDoor d { x with release := x.release.map fun q => { q with lapsed := true } })).handOn
    (.lapse d x.group)

/-- WINDOW_LAPSE (R36). -/
def execWindowLapse (d : DoorId) (s : State) : Host.Outcome State Fault Refusal :=
  event (s.reached (s.windowDeadline d) && (s.door d).state == .unlocked) (lapseWindow d) s

/-- DOOR_HELD is raised and the door stays OPEN (R38). -/
def heldOpen (d : DoorId) (s : State) : State :=
  raiseAlarm .doorHeld (some (zoneOf d)) (.door d) (s.setDoor d { s.door d with heldOpen := none })

/-- HELD_OPEN_EXPIRY (R38). -/
def execHeldOpenExpiry (d : DoorId) (s : State) : Host.Outcome State Fault Refusal :=
  event (s.reached (s.door d).heldOpen && (s.door d).state == .opened) (heldOpen d) s

/-! ### Hours -/

/-- MINUTE_BOUNDARY (R82, R86). -/
def execMinuteBoundary (s : State) : Host.Outcome State Fault Refusal :=
  event (s.hours.clockValid && s.hours.clock % 60 == 0) (evaluateHours .minute) s

/-- An entry whose deadline lies no more than `lead` seconds ahead, with its badge. -/
def deadlineEntry (s : State) (n : EntryNo) (lead : Nat) : Option (Entry × Badge) :=
  match s.entryAt n with
  | some e =>
    match e.badge, e.deadline with
    | some b, some t => if t ≤ s.uptime + lead then some (e, b) else none
    | _, _ => none
  | none => none

/-- LONE_WORKER_DEADLINE_EXPIRY (R91). -/
def execLoneWorkerDeadlineExpiry (n : EntryNo) (s : State) : Host.Outcome State Fault Refusal :=
  event (deadlineEntry s n 0).isSome
    (fun t => match deadlineEntry t n 0 with
      | some (e, b) => deadlineExpires e b t
      | none => t) s

/-- WARNING_LEAD_REACHED (R90). -/
def execWarningLeadReached (n : EntryNo) (s : State) : Host.Outcome State Fault Refusal :=
  event (deadlineEntry s n Config.warningLeadS).isSome
    (fun t => match t.entryAt n with
      | some e => evalWarning e.zone false t
      | none => t) s

/-- The zone's next re-sending is due (R90). -/
def resendDue (s : State) (z : Zone) : Bool :=
  match s.warning z with
  | some t => t ≤ s.uptime
  | none => false

/-- WARN_CHECKIN is sent again, and its next re-sending stands a further 60 s on (R90). -/
def resendWarning (z : Zone) (s : State) : State :=
  (s.setWarning z ((s.warning z).map (· + Config.warnResendS))).indicate z .vault .warnCheckin

/-- WARN_CHECKIN_RESEND (R90). -/
def execWarnCheckinResend (z : Zone) (s : State) : Host.Outcome State Fault Refusal :=
  event (resendDue s z) (resendWarning z) s

/-- PAIR_EXPIRED (R97). -/
def execPairExpired (z : Zone) (s : State) : Host.Outcome State Fault Refusal :=
  event (s.reached ((s.zone z).pairing.map (·.deadline))) (clearPairing z .pairExpired true) s

/-! ### Suppression -/

/-- COUNTDOWN_EXPIRY (R130). -/
def execCountdownExpiry (z : Zone) (s : State) : Host.Outcome State Fault Refusal :=
  event ((s.suppRec z).state == .preDischarge && (s.suppRec z).countdown == 0)
    (fun t => enterReleasing z .automatic (suppNotice z .expiry t)) s

/-- The confirm deadline is reached with no pressure (R132). -/
def confirmTimedOut (z : Zone) (s : State) : State :=
  raiseAlarm .releaseFault (some z) .none
    (setSuppState z { s.suppRec z with state := .releaseFault, deadline := none } (suppNotice z .confirmTimeout s))

/-- CONFIRM_TIMEOUT (R132). -/
def execConfirmTimeout (z : Zone) (s : State) : Host.Outcome State Fault Refusal :=
  event ((s.suppRec z).state == .releasing && s.reached (s.suppRec z).deadline) (confirmTimedOut z) s

/-- The soak time has run out (R134). -/
def soakDone (z : Zone) (s : State) : State :=
  suppNotice z .soakComplete (s.setSuppRec z { s.suppRec z with soakComplete := true, deadline := none })

/-- SOAK_COMPLETE (R134). -/
def execSoakComplete (z : Zone) (s : State) : Host.Outcome State Fault Refusal :=
  event ((s.suppRec z).state == .soak && s.reached (s.suppRec z).deadline) (soakDone z) s

/-- FORCE_WINDOW_EXPIRED (R144). -/
def execForceWindowExpired (s : State) : Host.Outcome State Fault Refusal :=
  event (s.reached s.supp.window.closesAt) (closeWindow .expired) s

/-! ### Sweep -/

/-- SWEEP_INTERVAL_EXPIRY (R151). -/
def execSweepIntervalExpiry (s : State) : Host.Outcome State Fault Refusal :=
  event (s.reached s.sweep.timer) intervalExpiry s

end Sys2Proof.Machine
end

