-- ==== Sys2Proof/Machine/Tick.lean ====
section
/-! DEFINITION. One millisecond of the time base: what the step on an empty queue does (log entry 1), and the timer events that have come
due, in a fixed order (log entry 2). -/
namespace Sys2Proof.Machine

/-- The time base advances by one millisecond (00 section 5). -/
def advanceTime (s : State) : State := { s with now := (s.now + 1) % Config.timeBaseModulus }

/-- The week clock advances with each second of the time base while it is valid (R82). -/
def advanceClock (s : State) : State :=
  if s.hours.clockValid && s.now % 1000 == 0 then
    { s with hours.clock := (s.hours.clock + 1) % Config.weekSeconds }
  else s

/-- The countdown of a zone in PREDISCHARGE falls (R128). -/
def fallCountdown (r : SuppRec) : SuppRec :=
  if r.state = .preDischarge then { r with countdown := r.countdown - 1 } else r

/-- Every zone's countdown falls. -/
def advanceCountdowns (s : State) : State := { s with supp.zones := (s.supp.zones.map fallCountdown) }

/-- A command, when its occasion is there. -/
def due (b : Bool) (c : Instr) : List Instr := if b then [c] else []

/-- The events of the store and the lines. -/
def dueLines (s : State) : List Instr :=
  due (match s.store.write with
    | some w => w.began + Config.storeWriteMs ≤ s.now
    | none => false) .storeCommit
    ++ (allLines.flatMap fun n => due (levelDue s n) (.lineLevelTaken n))
    ++ (allLines.flatMap fun n => due (s.started && s.reached (s.line n).holdDeadline) (.qualificationHoldExpiry n))
    ++ due (s.started && s.reached s.lines.chordDeadline) .chordQualifies

/-- The events of the passage unit. -/
def duePassage (s : State) : List Instr :=
  (s.passage.queries.flatMap fun q => due (q.raisedAt + Config.queryTimeoutMs ≤ s.now) (.queryTimeout q.id))
    ++ s.passage.cache.flatMap fun e => due (e.expiresAt ≤ s.uptime) (.cacheExpiry e.badge)

/-- A rail's queue is not empty and the rail has room. -/
def railDue (s : State) (r : Rail) : Bool := !(s.rail r).queue.isEmpty && s.railHasRoom r

/-- The events of the door unit. -/
def dueDoors (s : State) : List Instr :=
  (allDoors.flatMap fun d =>
    due (s.reached (s.door d).settleEnds) (.settleEnd d) ++ due (waitExpired s d) (.queuedWaitExpiry d)
      ++ due (s.reached (s.door d).boltTimer) (.boltTimerExpiry d) ++ due (s.reached (s.windowDeadline d)) (.windowLapse d)
      ++ due (s.reached (s.door d).heldOpen) (.heldOpenExpiry d))
    ++ due (railDue s .a) (.railRoom .a) ++ due (railDue s .b) (.railRoom .b)

/-- An entry that makes its zone's warning mark due while it is clear (R90). -/
def leadDue (s : State) (n : EntryNo) : Bool :=
  match deadlineEntry s n Config.warningLeadS with
  | some (e, _) => (s.warning e.zone).isNone && warningDue s e.zone
  | none => false

/-- The events of the hours unit. -/
def dueHours (s : State) : List Instr :=
  due (s.hours.clockValid && s.now % 1000 == 0 && s.hours.clock % 60 == 0) .minuteBoundary
    ++ (allEntryNos.flatMap fun n => due (deadlineEntry s n 0).isSome (.loneWorkerDeadlineExpiry n))
    ++ (allEntryNos.flatMap fun n => due (leadDue s n) (.warningLeadReached n))
    ++ allZones.flatMap fun z =>
        due (resendDue s z) (.warnCheckinResend z)
          ++ due (s.reached ((s.zone z).pairing.map (·.deadline))) (.pairExpired z)

/-- The events of the suppression, sweep and line units. -/
def dueZones (s : State) : List Instr :=
  (allZones.flatMap fun z =>
    let r := s.suppRec z
    due (r.state == .preDischarge && r.countdown == 0) (.countdownExpiry z)
      ++ due (r.state == .releasing && s.reached r.deadline) (.confirmTimeout z)
      ++ due (r.state == .soak && s.reached r.deadline) (.soakComplete z)
      ++ due ((s.output z).sounding != cadenceLevel s z) (.sounderCadence z))
    ++ due (s.reached s.supp.window.closesAt) .forceWindowExpired ++ due (s.reached s.sweep.timer) .sweepIntervalExpiry

/-- The timer events that have come due, in the model's order (log entry 2). -/
def dueEvents (s : State) : List Instr := dueLines s ++ duePassage s ++ dueDoors s ++ dueHours s ++ dueZones s

/-- One millisecond passes, and the events that have come due are queued. -/
def tick (s : State) : State :=
  let t := advanceCountdowns (advanceClock (advanceTime s))
  { t with pending := t.pending ++ dueEvents t }

end Sys2Proof.Machine
end

