-- ==== Sys2Proof/Machine/Dispatch.lean ====
section
/-! DEFINITION. The meaning of every command: one arm per row of spec/opcode_table.json. -/
namespace Sys2Proof.Machine

/-- The effect of a command on everything but the queue. -/
def exec (i : Instr) (s : State) : Host.Outcome State Fault Refusal :=
  match i with
  | .reset => Sys2Proof.Machine.execReset s
  | .recordLoad record => Sys2Proof.Machine.execRecordLoad record s
  | .frameReceived port bytes => Sys2Proof.Machine.execFrameReceived port bytes s
  | .transactionCutShort port => Sys2Proof.Machine.execTransactionCutShort port s
  | .selectHeldTimeout port => Sys2Proof.Machine.execSelectHeldTimeout port s
  | .readZone port zone => Sys2Proof.Machine.execReadZone port zone s
  | .readRoster port zone first => Sys2Proof.Machine.execReadRoster port zone first s
  | .readDoor port door => Sys2Proof.Machine.execReadDoor port door s
  | .readAlarms port first => Sys2Proof.Machine.execReadAlarms port first s
  | .readSuppression port zone => Sys2Proof.Machine.execReadSuppression port zone s
  | .readStatus port => Sys2Proof.Machine.execReadStatus port s
  | .readConfig port which => Sys2Proof.Machine.execReadConfig port which s
  | .fetchNotice port => Sys2Proof.Machine.execFetchNotice port s
  | .verdict port args => Sys2Proof.Machine.execVerdict port args s
  | .cacheLoad port entries => Sys2Proof.Machine.execCacheLoad port entries s
  | .cachePurge port which => Sys2Proof.Machine.execCachePurge port which s
  | .setClock port value => Sys2Proof.Machine.execSetClock port value s
  | .writeSchedule port windows => Sys2Proof.Machine.execWriteSchedule port windows s
  | .holdDoor port door => Sys2Proof.Machine.execHoldDoor port door s
  | .secureDoor port door => Sys2Proof.Machine.execSecureDoor port door s
  | .writePassageConfig port form => Sys2Proof.Machine.execWritePassageConfig port form s
  | .detect port zone detector => Sys2Proof.Machine.execDetect port zone detector s
  | .clearDetect port zone detector => Sys2Proof.Machine.execClearDetect port zone detector s
  | .holdZone port zone => Sys2Proof.Machine.execHoldZone port zone s
  | .unholdZone port zone => Sys2Proof.Machine.execUnholdZone port zone s
  | .cancel port zone => Sys2Proof.Machine.execCancel port zone s
  | .forceRelease port zone => Sys2Proof.Machine.execForceRelease port zone s
  | .vent port zone => Sys2Proof.Machine.execVent port zone s
  | .restore port zone => Sys2Proof.Machine.execRestore port zone s
  | .isolate port zone => Sys2Proof.Machine.execIsolate port zone s
  | .deisolate port zone => Sys2Proof.Machine.execDeisolate port zone s
  | .writeSuppressionConfig port zone fields => Sys2Proof.Machine.execWriteSuppressionConfig port zone fields s
  | .ackAlarm port which => Sys2Proof.Machine.execAckAlarm port which s
  | .clearAlarm port which => Sys2Proof.Machine.execClearAlarm port which s
  | .resolveZone port zone => Sys2Proof.Machine.execResolveZone port zone s
  | .verifyZone port zone inner vestibule => Sys2Proof.Machine.execVerifyZone port zone inner vestibule s
  | .removeOccupant port badge => Sys2Proof.Machine.execRemoveOccupant port badge s
  | .lockdown port which => Sys2Proof.Machine.execLockdown port which s
  | .endLockdown port which => Sys2Proof.Machine.execEndLockdown port which s
  | .concurForce port zone => Sys2Proof.Machine.execConcurForce port zone s
  | .sweepAll port => Sys2Proof.Machine.execSweepAll port s
  | .excludeSweep port zone => Sys2Proof.Machine.execExcludeSweep port zone s
  | .includeSweep port zone => Sys2Proof.Machine.execIncludeSweep port zone s
  | .setService port zone direction => Sys2Proof.Machine.execSetService port zone direction s
  | .enableForceChord port value => Sys2Proof.Machine.execEnableForceChord port value s
  | .storeCommit => Sys2Proof.Machine.execStoreCommit s
  | .loopExchange loop => Sys2Proof.Machine.execLoopExchange loop s
  | .stationReply loop bytes => Sys2Proof.Machine.execStationReply loop bytes s
  | .replyWindowMiss loop => Sys2Proof.Machine.execReplyWindowMiss loop s
  | .loopBreak loop => Sys2Proof.Machine.execLoopBreak loop s
  | .loopRestored loop => Sys2Proof.Machine.execLoopRestored loop s
  | .queryTimeout queryId => Sys2Proof.Machine.execQueryTimeout queryId s
  | .cacheExpiry badge => Sys2Proof.Machine.execCacheExpiry badge s
  | .settleEnd door => Sys2Proof.Machine.execSettleEnd door s
  | .queuedWaitExpiry door => Sys2Proof.Machine.execQueuedWaitExpiry door s
  | .railRoom rail => Sys2Proof.Machine.execRailRoom rail s
  | .boltTimerExpiry door => Sys2Proof.Machine.execBoltTimerExpiry door s
  | .windowLapse door => Sys2Proof.Machine.execWindowLapse door s
  | .heldOpenExpiry door => Sys2Proof.Machine.execHeldOpenExpiry door s
  | .minuteBoundary => Sys2Proof.Machine.execMinuteBoundary s
  | .loneWorkerDeadlineExpiry entry => Sys2Proof.Machine.execLoneWorkerDeadlineExpiry entry s
  | .warningLeadReached entry => Sys2Proof.Machine.execWarningLeadReached entry s
  | .warnCheckinResend zone => Sys2Proof.Machine.execWarnCheckinResend zone s
  | .pairExpired zone => Sys2Proof.Machine.execPairExpired zone s
  | .countdownExpiry zone => Sys2Proof.Machine.execCountdownExpiry zone s
  | .confirmTimeout zone => Sys2Proof.Machine.execConfirmTimeout zone s
  | .soakComplete zone => Sys2Proof.Machine.execSoakComplete zone s
  | .forceWindowExpired => Sys2Proof.Machine.execForceWindowExpired s
  | .sweepIntervalExpiry => Sys2Proof.Machine.execSweepIntervalExpiry s
  | .lineLevelTaken line => Sys2Proof.Machine.execLineLevelTaken line s
  | .qualificationHoldExpiry line => Sys2Proof.Machine.execQualificationHoldExpiry line s
  | .chordQualifies => Sys2Proof.Machine.execChordQualifies s
  | .sounderCadence zone => Sys2Proof.Machine.execSounderCadence zone s
  | .candidateChange line level => Sys2Proof.Machine.execCandidateChange line level s
  | .transactionEnd port => Sys2Proof.Machine.execTransactionEnd port s

end Sys2Proof.Machine
end

