-- ==== Sys2Proof/Machine/Step.lean ====
section
/-! DEFINITION. One step of the part: the command at the front of the queue, or one millisecond of the time base when the queue is empty. -/
namespace Sys2Proof.Machine

/-- One step: the front command runs on the state with the queue's rest; on an empty queue a millisecond passes (log entry 1). -/
def step (s : State) : Host.Outcome State Fault Refusal :=
  match s.pending with
  | c :: rest => exec c { s with pending := rest }
  | [] => .next (tick s)

/-- The state with the command a word spells at the front of its queue: no row of the table gives bits, so none is spelt (log entry 8). -/
def State.withFetchWord (s : State) (_nbits _w : Nat) : State := s

end Sys2Proof.Machine
end

