-- ==== Sys2Proof/WellFormed.lean ====
section
/-! DEFINITION. The commands the part's frames and stations can carry: the bounds a payload's length sets (R183, R208, R209). -/
namespace Sys2Proof

/-- A request's variable part fits its payload: at most 20 entries of CACHE_LOAD (R63), at most 49 windows in 248 bytes (R208). -/
def Request.wf : Request → Bool
  | .cacheLoad entries => entries.length ≤ 20
  | .writeSchedule windows => windows.length ≤ 49
  | _ => true

/-- A command is well formed: a request's variable part fits its payload. The bytes of a frame or of a station's reply may be any: the
part judges them (R171, R183). -/
def Instr.wf : Instr → Bool
  | .cacheLoad _ entries => Request.wf (.cacheLoad entries)
  | .writeSchedule _ windows => Request.wf (.writeSchedule windows)
  | _ => true

end Sys2Proof
end

