-- ==== Sys2Proof/Safety.lean ====
section
/-! DEFINITION. The words the statements are made of: which parts of the state a command leaves alone, how a step ends with a command's own
effect, and the safety properties the spec gives the part. -/
namespace Sys2Proof.Machine

/-- The parts of the state, for frames: the queue of commands, the time base, the mark that start-up has ended, the store, the zone
records, the roster pool, and each unit's own state. -/
inductive Part where
  | pending
  | now
  | started
  | store
  | zones
  | pool
  | doors
  | passage
  | hours
  | alarms
  | supp
  | sweep
  | loops
  | lines
  | ports
  deriving DecidableEq, Repr

/-- A part is the same in two states. -/
def Part.Same (s t : State) : Part → Prop
  | .pending => t.pending = s.pending
  | .now => t.now = s.now
  | .started => t.started = s.started
  | .store => t.store = s.store
  | .zones => t.zones = s.zones
  | .pool => t.pool = s.pool
  | .doors => t.doors = s.doors
  | .passage => t.passage = s.passage
  | .hours => t.hours = s.hours
  | .alarms => t.alarms = s.alarms
  | .supp => t.supp = s.supp
  | .sweep => t.sweep = s.sweep
  | .loops => t.loops = s.loops
  | .lines => t.lines = s.lines
  | .ports => t.ports = s.ports

/-- Every part outside the list is the same. -/
def SameBut (l : List Part) (s t : State) : Prop := ∀ x : Part, x ∉ l → Part.Same s t x

/-- No hand-on is waiting and no notice is due, as between steps (log entry 5). -/
def Calm (s : State) : Prop := s.work = Work.idle

/-- A command ends the step with `e` as its own effect: what the units hand to each other then follows from `e` (log entry 5). -/
def EndsWith (c : Instr) (s e : State) : Prop := exec c s = .next (finish s e)

/-- A frame answered at a port changes the port's record to the one given and, at the access port, ends SILENT and the count toward it
(R60, R183); nothing else changes. -/
def HeardAt (p : PortId) (x : Port) (s t : State) : Prop :=
  t.port p = x ∧ (∀ q : PortId, q ≠ p → t.port q = s.port q)
    ∧ t.passage = (if p = .access then { s.passage with silent := false, timeouts := 0 } else s.passage)
    ∧ SameBut [.ports, .passage] s t

/-- A request sent to a READY port is taken in the same step, has `e` as its own effect, and is answered with the status and payload
(R184, log entry 4). -/
def TakenWith (c : Instr) (p : PortId) (r : Request) (s e : State) (status : Status) (payload : List Byte) : Prop :=
  exec c s = .next (placeReply p r status payload (finishRequest (arrive p r s) e))

/-- A request sent to a READY port is answered with the status and payload and has no other effect (R186). -/
def AnsweredOnly (c : Instr) (p : PortId) (r : Request) (s : State) (status : Status) (payload : List Byte) : Prop :=
  exec c s = .next (placeReply p r status payload (arrive p r s))

/-- A reader has been sent a pattern: its INDICATE takes the place of one for the same reader in the loop's queue, or joins at the tail (R169);
it is discarded on a loop that is not RUNNING or for an ABSENT slot (R164, R165), and in evacuation no pattern but EVACUATE is sent (R56). -/
def ReaderSent (z : Zone) (side : Side) (pattern : Pattern) (s t : State) : Prop :=
  let x := s.loop (loopOf z)
  let a := slotOf (readerDoor z side)
  let sent : Bool := (!s.inEvacuation z || pattern == .evacuate) && x.state == .running && (s.slot (loopOf z) a).online != .absent
  let same (c : LoopCmd) : Bool := c.slot == a && c.body.sameClass (.indicate side pattern)
  let c : LoopCmd := ⟨a, .indicate side pattern, false⟩
  let queue := if x.queue.any same then x.queue.map fun y => if same y then c else y else x.queue ++ [c]
  t.loop (loopOf z) = (if sent then { x with queue := queue } else x) ∧ (∀ l, l ≠ loopOf z → t.loop l = s.loop l)
    ∧ t.loops.fastRate = s.loops.fastRate

/-- A presentation has been decided and nothing else done: the reader has been sent the pattern, if any, and the access port has been given
the PASSAGE_DECIDED notice with these fields (R68, R190; its layout: log entry 11). -/
def DecidedAs (d : DoorId) (side : Side) (pattern : Option Pattern) (b : Badge) (source : Source) (outcome : Decided)
    (reason : PassageReason) (group : Option Nat) (entries : List EntryNo) (query : Option Byte) (s t : State) : Prop :=
  (∀ x, pattern = some x → ReaderSent (zoneOf d) side x s t) ∧ (pattern = none → t.loops = s.loops)
    ∧ t.port .access = (s.port .access).place
        { kind := .passageDecided, uptime := s.uptime, zone := some (zoneOf d), subject := .door d,
          data := byte4 b.toNat ++ byte1 source.code ++ byte1 outcome.code ++ [Config.passageReasonCode reason.index]
            ++ byteOption byte1 group ++ byteList (fun (n : EntryNo) => byte1 n.val) entries
            ++ byteOption (fun (q : Byte) => [q]) query }
    ∧ (∀ p, p ≠ PortId.access → t.port p = s.port p) ∧ SameBut [.loops, .ports] s t

/-- The fields of an entry that the end of a claim leaves alone (R19); the hours and alarm units write the others: deadline, lone and unescorted
(R90, R94, R110, R111). -/
def Entry.core (e : Entry) : EntryNo × Zone × Option Badge × Role × Location × Nat × Option Badge × Nat × Bool × Option Nat :=
  (e.number, e.zone, e.badge, e.role, e.location, e.admittedAt, e.escort, e.checkIns, e.duress, e.group)

/-- The pool holds these entries in this order, up to the fields that the end of a claim writes. -/
def PoolIs (t : State) (es : List Entry) : Prop := t.pool.map Entry.core = es.map Entry.core

/-- A commit has written a record: the copy that was not in use holds the values in force, is good with its count one ahead of the former
current copy's, wrapping, and is current; the other copy is as it was (R198, R202). -/
def Stored.Committed {α : Type} (enc : α → List Byte) (x y : Stored α) : Prop :=
  y.useSecond = (!x.useSecond) ∧ y.current.fields = y.value ∧ y.current.count = x.current.count + 1 ∧ copyGood enc y.current = true
    ∧ (if x.useSecond then y.second = x.second else y.first = x.first) ∧ y.loaded = x.loaded ∧ y.defaulted = x.defaulted

/-- A record stands in a queue at the place R101 gives a new one: behind every record of its priority or a more urgent one, up to the
first less urgent. -/
def AlarmPlaced (r : AlarmRec) (before after : List AlarmRec) : Prop :=
  ∃ xs ys, before = xs ++ ys ∧ after = xs ++ r :: ys ∧ (∀ x ∈ xs, x.kind.priority ≤ r.kind.priority)
    ∧ ∀ y ∈ ys.head?, r.kind.priority < y.kind.priority

/-- Every door's record but this door's is as it was. -/
def OtherDoors (d : DoorId) (s t : State) : Prop := ∀ y : DoorId, y ≠ d → t.door y = s.door y

/-- The command that sends a request to a port. -/
def Request.command (p : PortId) (r : Request) : Instr :=
  match r with
  | .readZone zone => .readZone p zone
  | .readRoster zone first => .readRoster p zone first
  | .readDoor door => .readDoor p door
  | .readAlarms first => .readAlarms p first
  | .readSuppression zone => .readSuppression p zone
  | .readStatus => .readStatus p
  | .readConfig which => .readConfig p which
  | .fetchNotice => .fetchNotice p
  | .verdict args => .verdict p args
  | .cacheLoad entries => .cacheLoad p entries
  | .cachePurge which => .cachePurge p which
  | .setClock value => .setClock p value
  | .writeSchedule windows => .writeSchedule p windows
  | .holdDoor door => .holdDoor p door
  | .secureDoor door => .secureDoor p door
  | .writePassageConfig form => .writePassageConfig p form
  | .detect zone detector => .detect p zone detector
  | .clearDetect zone detector => .clearDetect p zone detector
  | .holdZone zone => .holdZone p zone
  | .unholdZone zone => .unholdZone p zone
  | .cancel zone => .cancel p zone
  | .forceRelease zone => .forceRelease p zone
  | .vent zone => .vent p zone
  | .restore zone => .restore p zone
  | .isolate zone => .isolate p zone
  | .deisolate zone => .deisolate p zone
  | .writeSuppressionConfig zone fields => .writeSuppressionConfig p zone fields
  | .ackAlarm which => .ackAlarm p which
  | .clearAlarm which => .clearAlarm p which
  | .resolveZone zone => .resolveZone p zone
  | .verifyZone zone inner vestibule => .verifyZone p zone inner vestibule
  | .removeOccupant badge => .removeOccupant p badge
  | .lockdown which => .lockdown p which
  | .endLockdown which => .endLockdown p which
  | .concurForce zone => .concurForce p zone
  | .sweepAll => .sweepAll p
  | .excludeSweep zone => .excludeSweep p zone
  | .includeSweep zone => .includeSweep p zone
  | .setService zone direction => .setService p zone direction
  | .enableForceChord value => .enableForceChord p value

/-- The requests that write the store (R200). -/
def Request.writes : Request → Bool
  | .writeSchedule _ | .writePassageConfig _ | .writeSuppressionConfig _ _ | .isolate _ | .deisolate _ | .lockdown _
  | .endLockdown _ | .excludeSweep _ | .includeSweep _ | .setService _ _ | .enableForceChord _ => true
  | _ => false

/-- R128: a zone is in PREDISCHARGE only while its certainty is EMPTY, its distress count is 0, no abort input of the zone is active or
faulted, and PANEL_HOLD is absent. -/
def CountdownSafe (s : State) : Prop :=
  ∀ z : Zone, (s.suppRec z).state = .preDischarge →
    s.certainty z = .empty ∧ s.distress z = 0 ∧ s.abortActive z = false ∧ (s.suppRec z).holds.panelHold = false

/-- R145: a zone's release output is driven only while its suppression state is RELEASING, and its vent output only in VENT. -/
def OutputsSafe (s : State) : Prop :=
  ∀ z : Zone, ((s.output z).release = true → (s.suppRec z).state = .releasing)
    ∧ ((s.output z).vent = true → (s.suppRec z).state = .vent)

/-- R3: no two entries of the roster pool hold one slot, so that it holds at most 96. -/
def PoolNumbered (s : State) : Prop := (s.pool.map (·.number)).Nodup

end Sys2Proof.Machine
end

