-- ==== Sys2Proof/Certificates/Slice0/Obligations.lean ====
section
/-! DEFINITION. The statements for the provers. A command's own effect is named `e` where its hand-ons to other units follow it
(`EndsWith`, `TakenWith` of Sys2Proof/Safety.lean); `SameBut` is the frame. -/
open Sys2Proof Sys2Proof.Machine

/-! ### The step -/

/-- The step takes the front command and runs it on the state with the queue's rest. -/
def Obligations.StepRunsFrontCommand : Prop :=
  ∀ (c : Instr) (rest : List Instr) (s : State),
    step { s with pending := c :: rest } = exec c { s with pending := rest }

/-- On an empty queue one millisecond passes and the events that have come due are queued: the model's choice (log entries 1 and 2) over
R82 and R128. -/
def Obligations.IdleStepPassesOneMillisecond : Prop :=
  ∀ s : State, s.pending = [] → ∃ t : State, step s = .next t ∧ t.now = (s.now + 1) % 281474976710656
    ∧ t.hours = { s.hours with
        clock := (if s.hours.clockValid && t.now % 1000 == 0 then (s.hours.clock + 1) % 604800 else s.hours.clock) }
    ∧ (∀ z : Zone, t.suppRec z = { s.suppRec z with
        countdown := (if (s.suppRec z).state = .preDischarge then (s.suppRec z).countdown - 1 else (s.suppRec z).countdown) })
    ∧ t.supp.window = s.supp.window ∧ t.pending = dueEvents { t with pending := [] }
    ∧ SameBut [.pending, .now, .hours, .supp] s t

/-! ### Reset and start-up -/

/-- What a reset leaves, unit by unit (R26, R53, R81, R98, R118, R149, R162, R163, R165, R176, R180, R181, R197, R203); the waiting commands
and the levels at the lines stay (log entries 9 and 27), and what the store gives later stands as log entry 10 names it. That the values in
force are then the defaults with the first copy in use, and that every suppression record is NORMAL whatever its stored isolation flag (R149,
R206), is the model's choice (log entry 7, unsafe). -/
def Obligations.ResetLeavesResetValues : Prop :=
  ∀ s : State, ∃ t : State, exec .reset s = .next t
    ∧ t.pending = s.pending ∧ t.now = 0 ∧ t.started = false ∧ t.pool = [] ∧ t.work = ⟨[], [], false⟩
    ∧ (∀ z : Zone, t.zone z =
        { inService := false, reasons := ⟨true, false, false, false, false⟩, headcount := 0, headcountValid := false,
          generation := 0, sweepMark := false, late := ⟨false, false, false, false, false⟩, pairing := none, deferrals := 0,
          lastResult := .none }
        ∧ t.certainty z = .uncertain ∧ t.distress z = 0)
    ∧ (∀ d : DoorId, t.door d =
        { state := .unverified, release := none, relock := false, contact := .unknown, bolt := .unknown, travel := 0,
          degraded := false, forced := false, securedAt := none, settleEnds := none, boltTimer := none, heldOpen := none })
    ∧ (∀ r : Rail, t.rail r = ⟨[], [], []⟩) ∧ (∀ z : Zone, t.underSweep z = false)
    ∧ t.passage.queries = [] ∧ t.passage.nextQuery = 0 ∧ t.passage.cache = [] ∧ t.passage.silent = false
    ∧ t.passage.timeouts = 0 ∧ t.passage.lastGroup = 0
    ∧ (∀ z : Zone, t.zonePassage z =
        { entryGroup := none, vestibuleGroup := none, exitGroup := none, pendingInner := false, pendingOuter := false,
          tallyIn := 0, tallyOut := 0, held := none })
    ∧ t.hours.clockValid = false ∧ t.hours.clock = 0 ∧ t.hours.state = .afterHours ∧ t.hours.schedule = []
    ∧ (∀ z : Zone, t.warning z = none)
    ∧ t.alarms.queue = [] ∧ t.alarms.generation = 0 ∧ t.alarms.overflowMark = false ∧ t.alarms.overflowCount = 0
    ∧ (∀ z : Zone, t.latch z = false)
    ∧ (∀ z : Zone, t.suppRec z =
        { state := .normal, detectors := [], confirmed := false, holds := ⟨false, false, true, false, false⟩,
          countdown := 0, cause := none, deadline := none, soakComplete := false, pullSeen := false })
    ∧ t.supp.window = ⟨none, none, none⟩
    ∧ t.sweep.pointer = 0 ∧ t.sweep.timer = none ∧ t.sweep.inProgress = none ∧ t.sweep.allList = none
    ∧ (∀ z : Zone, nth t.sweep.beamsIn z = 0 ∧ nth t.sweep.beamsOut z = 0)
    ∧ (∀ l : LoopId, (t.loop l).state = .stopped ∧ (t.loop l).queue = [] ∧ (t.loop l).exchange = none ∧ (t.loop l).sent = []
        ∧ (t.loop l).lastPolled = 0 ∧ ∀ a : SlotId, t.slot l a =
            { configured := false, online := .absent, missed := 0, tamper := .unknown, tallies := none,
              overflowQuery := false })
    ∧ t.loops.fastRate = false
    ∧ (∀ n : LineId, t.line n =
        { candidate := (s.line n).candidate, since := 0, supervised := none, armed := false, qualified := false,
          holdDeadline := none })
    ∧ t.lines.chordDeadline = none ∧ t.lines.chordSpent = false
    ∧ (∀ z : Zone, t.output z = { release := false, vent := false, pattern := .off, sounding := false, since := 0 })
    ∧ (∀ p : PortId, t.port p =
        { slot := none, reply := none, notices := [Notice.resyncReset], resync := false, drops := 0, link := .idle }
      ∧ t.ready p = false ∧ t.attn p = true)
    ∧ t.store.write = none ∧ t.store.defaultedMark = false
    ∧ t.store.part = { s.store.part with useSecond := false, value := PartRec.default, loaded := false, defaulted := false }
    ∧ t.store.control
        = { s.store.control with useSecond := false, value := ControlRec.default, loaded := false, defaulted := false }
    ∧ ∀ z : Zone, t.storedZone z
        = { s.storedZone z with useSecond := false, value := ZoneCfg.default, loaded := false, defaulted := false }

/-- RECORD_LOAD takes its record's good copy: of two the one whose count is one ahead, of one that one, and of none the defaults, the record
marked defaulted with a good current copy (R205; which copy and count the write-back takes is the model's choice, log entry 50). A defaulted
zone's service flag is written OUT_OF_SERVICE in the control record whatever it read, a commit like any other (R205); that it is made in the
step of the zone's load, before the control record's own load too, is the model's choice (log entry 29). Start-up ends when every record is
loaded, and the load of the last leaves what the end of start-up gives from the store it leaves (R206). -/
def Obligations.RecordLoadTakesTheGoodCopy : Prop :=
  (∀ (α : Type) (enc : α → List Byte) (default : α) (x : Stored α),
    let good := copyGood enc
    let y := Stored.load enc default x
    (good x.first = true → good x.second = true →
        y.value = (if x.second.count = x.first.count + 1 then x.second.fields else x.first.fields)
          ∧ y.first = x.first ∧ y.second = x.second)
    ∧ (good x.first = true → good x.second = false → y.value = x.first.fields ∧ y.first = x.first ∧ y.second = x.second)
    ∧ (good x.first = false → good x.second = true → y.value = x.second.fields ∧ y.first = x.first ∧ y.second = x.second)
    ∧ (good x.first = false → good x.second = false → y.value = default ∧ y.defaulted = true ∧ good y.current = true)
    ∧ ((good x.first = true ∨ good x.second = true) → y.defaulted = x.defaulted) ∧ y.loaded = true)
  ∧ ∀ (r : RecordId) (s : State), s.started = false → recordLoaded s r = false →
    let part := Stored.load PartRec.bytes PartRec.default s.store.part
    let zone (z : Zone) := Stored.load ZoneCfg.bytes ZoneCfg.default (s.storedZone z)
    let control := Stored.load ControlRec.bytes ControlRec.default s.store.control
    ∃ e : State, EndsWith (.recordLoad r) s e ∧ recordLoaded e r = true ∧ e.started = allLoaded e
      ∧ (r = .part → e.store.part = part ∧ (∀ z, e.storedZone z = s.storedZone z) ∧ e.store.control = s.store.control
          ∧ e.store.defaultedMark = (s.store.defaultedMark || part.defaulted))
      ∧ (∀ z, r = .zone z → e.storedZone z = zone z ∧ (∀ y, y ≠ z → e.storedZone y = s.storedZone y)
          ∧ e.store.part = s.store.part ∧ e.store.defaultedMark = s.store.defaultedMark
          ∧ ((zone z).defaulted = false → e.store.control = s.store.control)
          ∧ ((zone z).defaulted = true → Stored.Committed ControlRec.bytes (controlInForce s) (controlInForce e)
              ∧ (controlInForce e).value
                  = { (controlInForce s).value with service := (put (controlInForce s).value.service z false) }
              ∧ nth (controlInForce e).value.service z = false
              ∧ (∀ y, y ≠ z → nth (controlInForce e).value.service y = nth (controlInForce s).value.service y)
              ∧ e.store.control.loaded = s.store.control.loaded
              ∧ e.store.control.defaulted = (if s.store.control.loaded then s.store.control else control).defaulted))
      ∧ (r = .control → e.store.control = control ∧ e.store.part = s.store.part ∧ (∀ z, e.storedZone z = s.storedZone z)
          ∧ e.store.defaultedMark = (s.store.defaultedMark || control.defaulted))
      ∧ e.store.write = s.store.write ∧ (allLoaded e = false → SameBut [.store] s e)
      ∧ (allLoaded e = true → e = endStartUp { s with store := e.store })
      ∧ SameBut [.store, .started, .zones, .supp, .hours, .loops, .sweep, .doors] s e

/-- What the end of start-up takes from the store (R206, R53, R165). -/
def Obligations.StartUpEndTakesWorkingValues : Prop :=
  ∀ s : State, let t := endStartUp s
    t.started = true ∧ t.hours.schedule = s.partCfg.schedule
    ∧ t.sweep.timer = some (s.now + s.partCfg.sweepInterval * 1000)
    ∧ (∀ r : Rail, (t.rail r).history = [s.now, s.now, s.now, s.now])
    ∧ (∀ z : Zone, (t.zone z).inService = nth s.control.service z
        ∧ (t.suppRec z).state = if s.isolationFlag z then .isolated else .normal)
    ∧ (∀ l : LoopId, (t.loop l).state = .running)
    ∧ (∀ d : DoorId, (t.slot (loopOf (zoneOf d)) (slotOf d)).online
        = if (if isOuter d then (s.cfg (zoneOf d)).outerConfigured else (s.cfg (zoneOf d)).innerConfigured) then .offline
          else .absent)

/-! ### The port link -/

/-- FRAME_RECEIVED. Which frames are faults: a length byte above 248, a byte count that is not the length plus 4, a wrong CRC-16, a code that is
not one of the part's, a payload that is not one a request of that code has; an empty payload under code 0 is a collection, under code 1 the
reset frame, and any other sound frame is its request (R183, R208, R209). By that judgement, what the port's record becomes, and what the
passage unit hears of it (R60, R184, R197); a frame of fewer than two bytes is discarded, and a selector, mask or presence byte outside its
codes does not fit (the model's choice, log entry 15). -/
def Obligations.FrameIsJudged : Prop :=
  (∀ (n code : Byte) (rest : List Byte),
    let bytes := n :: code :: rest
    let k := judgeFrame code bytes
    let c := code.toNat
    let payload := rest.take n.toNat
    let sound : Prop := n.toNat ≤ 248 ∧ bytes.length = n.toNat + 4
      ∧ bytes.drop (n.toNat + 2) = crc16Bytes (bytes.take (n.toNat + 2))
    let ofPart : Prop := c ≤ 1 ∨ (0x10 ≤ c ∧ c ≤ 0x17) ∨ (0x20 ≤ c ∧ c ≤ 0x27) ∨ (0x30 ≤ c ∧ c ≤ 0x3A) ∨ (0x40 ≤ c ∧ c ≤ 0x4C)
    let spells (r : Request) : Prop := Request.wf r = true ∧ Request.code r = code ∧ Request.payload r = payload
    let fits : Prop := (c ≤ 1 ∧ payload = []) ∨ ∃ r, spells r
    (k = .bad ↔ ¬ sound ∨ ¬ ofPart ∨ ¬ fits)
    ∧ (k = .collect ↔ sound ∧ c = 0 ∧ payload = [])
    ∧ (k = .resetFrame ↔ sound ∧ c = 1 ∧ payload = [])
    ∧ ∀ r, k = .request r ↔ sound ∧ spells r)
  ∧ (∀ (p : PortId) (n code : Byte) (rest : List Byte) (s : State),
    let c := Instr.frameReceived p (n :: code :: rest)
    let k := judgeFrame code (n :: code :: rest)
    let leaves (x : Port) : Prop := ∃ t, exec c s = .next t ∧ HeardAt p x s t
    let answered (r : Reply) (collection : Bool) : Prop :=
      leaves { s.port p with link := .answering (Reply.frame r) collection }
    (∀ r, k = .request r → s.ready p = true → leaves { s.port p with slot := some r, link := .answering [] false })
    ∧ (∀ r, k = .request r → s.ready p = false → answered ⟨code, .busy, []⟩ false)
    ∧ (k = .bad → answered ⟨code, .badFrame, []⟩ false)
    ∧ (∀ x, k = .collect → s.started = true → (s.port p).reply = some x → answered x true)
    ∧ (k = .collect → s.started = true → (s.port p).reply = none → (s.port p).slot = none → answered ⟨0, .ok, []⟩ false)
    ∧ (k = .collect → (s.started = false ∨ ((s.port p).reply = none ∧ (s.port p).slot ≠ none)) →
        answered ⟨0, .busy, []⟩ false)
    ∧ (k = .resetFrame → exec c s = .next (setLink p (.answering [] false) (finish s (resetPort p s)))))
  ∧ (∀ r : Reply, ∃ body, Reply.frame r = body ++ crc16Bytes body
      ∧ body = byte1 r.payload.length ++ [r.echo] ++ byte1 r.status.code ++ r.payload)
  ∧ ∀ (p : PortId) (bytes : List Byte) (s : State), bytes.length < 2 →
      exec (.frameReceived p bytes) s = .next (s.setPort p { s.port p with link := .idle })

/-- How a port's transactions end. The end of a collection empties the reply slot; a cut-short one keeps the reply (R184); nothing else
changes. Select held low resets the port (R195, R196): its own record and a store write on its account, and by the port the access port's
queries or the force window, whose FORCE_WINDOW stands behind the RESYNC (R144); that the queries are decided oldest first is the model's
choice (log entry 43). -/
def Obligations.TransactionsEndOrResetThePort : Prop :=
  ∀ (p : PortId) (s : State),
    (∀ bytes, (s.port p).link = .answering bytes true →
      exec (.transactionEnd p) s = .next (s.setPort p { s.port p with reply := none, link := .idle }))
    ∧ ((∀ bytes, (s.port p).link ≠ .answering bytes true) →
      exec (.transactionEnd p) s = .next (s.setPort p { s.port p with link := .idle }))
    ∧ exec (.transactionCutShort p) s = .next (s.setPort p { s.port p with link := .idle })
    ∧ ∃ e, EndsWith (.selectHeldTimeout p) s e
      ∧ (p = .access → e = s.passage.queries.foldl (fun t q => cacheDecide q.presentation (endQuery q.id t)) (clearPort p s))
      ∧ (p ≠ .access → s.supp.window.closesAt = none → e = clearPort p s)
      ∧ (p ≠ .access → s.supp.window.closesAt ≠ none → e = closeWindow .portReset (clearPort p s)
          ∧ e.supp.window = ⟨none, none, none⟩ ∧ e.supp.zones = s.supp.zones ∧ e.store = (clearPort p s).store
          ∧ (∃ n : Notice, n.kind = .forceWindow ∧ e.port p
              = { slot := none, reply := none, notices := [resyncPortReset s, n], resync := false, drops := 0, link := .idle })
          ∧ e.port .access = s.port .access ∧ SameBut [.ports, .store, .supp] s e)
      ∧ (clearPort p s).port p
          = { slot := none, reply := none, notices := [resyncPortReset s], resync := false, drops := 0, link := .idle }
      ∧ (∀ q, q ≠ p → (clearPort p s).port q = s.port q)
      ∧ (clearPort p s).store
          = { s.store with write := (if s.store.write.map (·.port) = some p then none else s.store.write) }
      ∧ SameBut [.ports, .store] s (clearPort p s)

/-- A notice reaches a queue with a place at its tail and is dropped and counted at a full one; FETCH_NOTICE removes the head, and
places RESYNC OVERFLOW when the resync flag is set (R190, R191); it is answered with that notice and the number left, and at an empty queue
with a count of 0 (R193). How the RESYNC codes its drop count is the model's choice (log entry 11). -/
def Obligations.NoticesQueueAndAreFetched : Prop :=
  (∀ (x : Port) (n : Notice),
    (x.notices.length < 48 → x.place n = { x with notices := (x.notices ++ [n]) })
    ∧ (48 ≤ x.notices.length → x.place n = { x with resync := true, drops := (min (x.drops + 1) 65535) }))
  ∧ ∀ (p : PortId) (s : State), s.ready p = true →
    ((s.port p).notices = [] → AnsweredOnly (.fetchNotice p) p .fetchNotice s .ok [0])
    ∧ (∀ n rest, (s.port p).notices = n :: rest → ∃ e, TakenWith (.fetchNotice p) p .fetchNotice s e .ok
        (byte1 ((finishRequest (arrive p .fetchNotice s) e).port p).notices.length ++ Notice.bytes n)
      ∧ ((s.port p).resync = false → (e.port p).notices = rest)
      ∧ ((s.port p).resync = true →
          (e.port p).notices = rest ++ [resyncOverflow s (s.port p).drops] ∧ (e.port p).resync = false ∧ (e.port p).drops = 0)
      ∧ SameBut [.ports, .passage] s e)

/-- A request outside its port's rights is answered NOT_PERMITTED, and one whose argument names no zone, door or entry BAD_ARGUMENT;
neither changes anything else (R185, R186). -/
def Obligations.RightsAndRangesAreKept : Prop :=
  (∀ (p : PortId) (r : Request) (s : State), s.ready p = true → permitted p r = false →
    AnsweredOnly (Request.command p r) p r s .notPermitted [])
  ∧ ∀ (p : PortId) (r : Request) (s : State), s.ready p = true → permitted p r = true →
      (∃ b, zoneArg b = none ∧ (r = .readZone b ∨ r = .readSuppression b ∨ (∃ f, r = .readRoster b f)
        ∨ r = .readConfig (.zone b) ∨ r = .holdZone b ∨ r = .unholdZone b ∨ r = .cancel b ∨ r = .forceRelease b ∨ r = .vent b
        ∨ r = .restore b ∨ r = .resolveZone b ∨ r = .concurForce b ∨ (∃ d, r = .detect b d ∨ r = .clearDetect b d)
        ∨ ∃ i v, r = .verifyZone b i v))
      ∨ (∃ b, doorArg b = none ∧ (r = .readDoor b ∨ r = .holdDoor b ∨ r = .secureDoor b))
      ∨ (∃ b f : Byte, 23 < f.toNat ∧ r = .readRoster b f) ∨ (∃ f : Byte, 31 < f.toNat ∧ r = .readAlarms f) →
      AnsweredOnly (Request.command p r) p r s .badArgument []

/-- A request that carries badge 0 or FFFFFFFFh, as a field or as the BADGE subject of an alarm key, is answered BAD_ARGUMENT whatever else
it carries, and nothing changes (R187). -/
def Obligations.BadBadgesAreRefused : Prop :=
  ∀ (b : Badge) (s : State), (b = 0 ∨ b = 0xFFFFFFFF#32) →
    (s.ready .access = true →
      (∀ a : VerdictArgs, a.badge = b → AnsweredOnly (.verdict .access a) .access (.verdict a) s .badArgument [])
      ∧ (∀ es : List CacheArgs, es.length ≤ 20 → (∃ a ∈ es, a.badge = b) →
          AnsweredOnly (.cacheLoad .access es) .access (.cacheLoad es) s .badArgument [])
      ∧ AnsweredOnly (.cachePurge .access (.badge b)) .access (.cachePurge (.badge b)) s .badArgument [])
    ∧ (s.ready .guard = true →
      AnsweredOnly (.removeOccupant .guard b) .guard (.removeOccupant b) s .badArgument []
      ∧ ∀ (kind zone : Byte) (seen : Option Byte),
          AnsweredOnly (.ackAlarm .guard (.key ⟨kind, zone, .badge b⟩ seen)) .guard (.ackAlarm (.key ⟨kind, zone, .badge b⟩ seen)) s
            .badArgument []
          ∧ AnsweredOnly (.clearAlarm .guard (.key ⟨kind, zone, .badge b⟩)) .guard (.clearAlarm (.key ⟨kind, zone, .badge b⟩)) s
            .badArgument [])

/-- A request sent to a port that is not READY is answered BUSY (R183, R197); one that waits in the slot is taken as though it arrived
at an empty one (R184, log entry 4). -/
def Obligations.PortsTakeOrTurnAway : Prop :=
  (∀ (p : PortId) (r : Request) (s : State), s.ready p = false → (s.port p).slot ≠ some r →
    ∃ t, exec (Request.command p r) s = .next t
      ∧ HeardAt p { s.port p with link := .answering (Reply.frame ⟨Request.code r, .busy, []⟩) false } s t)
  ∧ ∀ (p : PortId) (r : Request) (s : State), s.ready p = true →
      heldForWrite s p = false → exec (Request.command p r) (arrive p r s) = exec (Request.command p r) s

/-! ### Reads -/

/-- The seven reads are answered OK with the state as it stands and change no other part: the fields of each reply, in their order (R25, R52,
R115, R148, R194, R204), the entry record of 23 bytes among them (R210), the numbers most significant byte first (R207). Where R209 leaves a
reply's layout or a width open, which selector of READ_CONFIG carries which fields, and how PULL and PRESSURE read, are the model's choice
(log entries 28 and 51). -/
def Obligations.ReadsAnswerTheState : Prop :=
  ((∀ n : Nat, byte1 n = [BitVec.ofNat 8 n] ∧ byte2 n = [BitVec.ofNat 8 (n / 256), BitVec.ofNat 8 n]
      ∧ byte4 n = [BitVec.ofNat 8 (n / 16777216), BitVec.ofNat 8 (n / 65536), BitVec.ofNat 8 (n / 256), BitVec.ofNat 8 n])
    ∧ [Role.staff, .escort, .visitor, .contractor, .unidentified].map Role.code = [0, 1, 2, 3, 4]
    ∧ [Location.admitted, .vestibule, .inner].map Location.code = [0, 1, 2]
    ∧ [Certainty.empty, .occupied, .uncertain].map Certainty.code = [0, 1, 2])
  ∧ ∀ (p : PortId) (s : State), s.ready p = true →
    let bit (b : Bool) (n : Nat) : Nat := if b then n else 0
    let badge (b : Option Badge) : List Byte := byte4 ((b.map (·.toNat)).getD 0)
    let entry (e : Entry) : List Byte :=
      byte1 e.number.val ++ byte1 e.zone.val ++ byte1 e.role.code ++ byte1 e.location.code ++ badge e.badge ++ byte4 e.admittedAt
        ++ badge e.escort ++ byte4 (e.deadline.getD 0) ++ byte1 e.checkIns
        ++ byte1 (bit e.duress 1 + bit e.unescorted 2 + bit e.lone 4 + bit e.deadline.isSome 8) ++ byte1 (e.group.getD 0)
    let alarm (r : AlarmRec) : List Byte :=
      byte1 r.kind.code ++ zoneByte r.zone ++ (byte1 r.subject.form ++ r.subject.value) ++ byte1 r.kind.priority
        ++ byte1 (if r.present then 0 else 1) ++ byte1 (if r.acknowledged then 1 else 0) ++ byte4 r.firstRaised ++ byte4 r.lastRaised
        ++ byte1 r.raises
    let left (deadline : Option Nat) : List Byte := byteOption byte4 (deadline.map fun t => t - s.now)
    (∀ e, (entry e).length = 23)
    ∧ (∀ b z, zoneArg b = some z →
      let x := s.zone z
      let at_ (l : Location) : List Entry := (s.roster z).filter fun e => e.location == l
      let both (l : Location) : List Byte := byte1 ((at_ l).filter fun e => e.badge.isSome).length
        ++ byte1 ((at_ l).length - ((at_ l).filter fun e => e.badge.isSome).length)
      let r := s.suppRec z
      let c := s.cfg z
      let w := s.supp.window
      AnsweredOnly (.readZone p b) p (.readZone b) s .ok
        (byte1 (if x.inService then 0 else 1)
          ++ byte1 (bit x.reasons.restart 1 + bit x.reasons.unbadgedExit 2 + bit x.reasons.tailgateOverflow 4
              + bit x.reasons.stationLost 8 + bit x.reasons.countMismatch 16)
          ++ byte1 x.headcount ++ byteFlag x.headcountValid ++ byte1 (s.certainty z).code ++ byte2 x.generation.toNat
          ++ byteFlag x.sweepMark
          ++ byteOption (fun (y : Pairing) => byte4 y.badge.toNat ++ byte1 y.door.val ++ byte6 y.deadline) x.pairing
          ++ byte1 x.deferrals ++ byte1 x.lastResult.code ++ byte1 (s.roster z).length
          ++ both .admitted ++ both .vestibule ++ both .inner ++ byte1 c.cap ++ byte1 (96 - s.pool.length))
      ∧ (∀ f : Byte, f.toNat ≤ 23 → AnsweredOnly (.readRoster p b f) p (.readRoster b f) s .ok
        (byte2 x.generation.toNat ++ byte1 (s.certainty z).code ++ byte1 (s.roster z).length ++ byte1 f.toNat
          ++ (((s.roster z).drop f.toNat).take 10).flatMap entry))
      ∧ AnsweredOnly (.readSuppression p b) p (.readSuppression b) s .ok
        (byte1 r.state.code ++ byteList (fun d => [d]) r.detectors ++ byteFlag r.confirmed
          ++ byte1 (bit r.holds.abort 1 + bit r.holds.occupied 2 + bit r.holds.uncertain 4 + bit r.holds.distress 8
              + bit r.holds.panelHold 16)
          ++ byte4 r.countdown ++ byteOption (fun k => byte1 k.code) r.cause ++ left r.deadline ++ byteFlag r.soakComplete
          ++ byteFlag r.pullSeen ++ byte1 c.coincidence ++ byte1 c.preDischarge ++ byte1 c.resume ++ byte1 c.confirmTime
          ++ byte2 c.soakTime ++ byteFlag (nth s.control.isolation z) ++ byteFlag (s.line (pullLine z)).qualified
          ++ byteFlag (s.abortActive z) ++ byteFlag (s.line (pressureLine z)).qualified ++ byteFlag w.closesAt.isNone
          ++ zoneByte w.suppressionHalf ++ zoneByte w.guardHalf ++ left w.closesAt ++ byteFlag s.control.forceChord)
      ∧ AnsweredOnly (.readConfig p (.zone b)) p (.readConfig (.zone b)) s .ok
          (c.bytes ++ byte4 (s.storedZone z).current.count.toNat ++ byteFlag (s.storedZone z).defaulted))
    ∧ (∀ b d, doorArg b = some d →
      let x := s.door d
      let k := s.rail (s.railOf d)
      let place : List Byte := match k.queue.findIdx? (· == d), k.outside.findIdx? (· == d) with
        | some i, _ => [1, 0] ++ byte1 i
        | none, some i => [1, 1] ++ byte1 i
        | none, none => [0]
      AnsweredOnly (.readDoor p b) p (.readDoor b) s .ok
        (byte1 x.state.code
          ++ byteOption (fun (r : Release) => byte1 r.kind.code ++ byte1 r.origin.code ++ byteOption byte1 r.group ++ left r.window
              ++ byte1 (bit r.wait.interlock 1 + bit r.wait.settle 2 + bit r.wait.sweep 4 + bit r.wait.rail 8)
              ++ byte6 r.queuedAt ++ byteFlag r.opened ++ byteFlag r.cut) x.release
          ++ byteFlag x.relock ++ byte1 x.contact.code ++ byte1 x.bolt.code ++ byte2 x.travel ++ byteFlag x.degraded
          ++ byteFlag x.forced ++ byteOption byte4 x.securedAt ++ byte1 (if s.railOf d = .a then 0 else 1) ++ place
          ++ byteList byte6 (k.history.filter fun t => s.now < t + 2000) ++ byteFlag (s.egressOnly (zoneOf d))
          ++ byteFlag (s.underSweep (zoneOf d))))
    ∧ (∀ f : Byte, f.toNat ≤ 31 → AnsweredOnly (.readAlarms p f) p (.readAlarms f) s .ok
        (byte1 s.alarms.queue.length ++ byte2 s.alarms.generation.toNat ++ byteFlag s.alarms.overflowMark
          ++ byte1 s.alarms.overflowCount ++ (allZones.flatMap fun z => byte1 (s.distress z) ++ byteFlag (s.latch z))
          ++ byte1 f.toNat ++ byteList alarm ((s.alarms.queue.drop f.toNat).take 10)))
    ∧ (let t := arrive p .readStatus s
      let port (q : PortId) : List Byte := let x := t.port q
        byteFlag x.slot.isSome ++ byteFlag x.reply.isSome ++ byte1 x.notices.length ++ byteFlag x.resync ++ byte2 x.drops
      AnsweredOnly (.readStatus p) p .readStatus s .ok
        (byte4 s.uptime ++ byteFlag s.store.defaultedMark ++ byteFlag s.store.write.isSome
          ++ port .access ++ port .suppression ++ port .guard
          ++ byteFlag t.passage.silent ++ byte1 t.passage.timeouts ++ byte1 s.passage.queries.length
          ++ byte1 (s.passage.cache.filter fun e => s.uptime < e.expiresAt).length
          ++ byte4 s.hours.clock ++ byteFlag s.hours.clockValid ++ byte1 s.hours.state.code
          ++ byteFlag s.alarms.overflowMark ++ byte1 s.alarms.overflowCount ++ byte1 (96 - s.pool.length)
          ++ byte1 s.sweep.pointer.val
          ++ byteOption (fun (r : SweepRec) => byte1 r.zone.val ++ byte1 r.kind.code) s.sweep.inProgress
          ++ byteOption (byteList fun (z : Zone) => byte1 z.val) s.sweep.allList
          ++ (allLoops.flatMap fun l => byte1 (s.loop l).state.code)
          ++ (allLoops.flatMap fun l => allSlots.flatMap fun a => byte1 (s.slot l a).online.code)
          ++ (allZones.flatMap fun z =>
                byteFlag (s.output z).release ++ byteFlag (s.output z).vent ++ byteFlag (s.output z).sounding)
          ++ allZones.flatMap fun z => byte1 (s.output z).pattern.code))
    ∧ AnsweredOnly (.readConfig p .part) p (.readConfig .part) s .ok
        (s.partCfg.paramBytes ++ byte4 s.store.part.current.count.toNat ++ byteFlag s.store.part.defaulted)
    ∧ AnsweredOnly (.readConfig p .schedule) p (.readConfig .schedule) s .ok
        (byteList Window.bytes s.partCfg.schedule ++ byte4 s.store.part.current.count.toNat
          ++ byteFlag s.store.part.defaulted)
    ∧ AnsweredOnly (.readConfig p .control) p (.readConfig .control) s .ok
        (s.control.bytes ++ byte4 s.store.control.current.count.toNat ++ byteFlag s.store.control.defaulted)

/-! ### The access port -/

/-- A VERDICT out of its ranges is answered BAD_ARGUMENT, with no effect: no badge, a role that is not one of the four, a lifetime above 86,400 s
(R59); an outcome or mark outside its codes too (the model's choice, log entry 15). Else its cache effect, matched or not: a DENY removes the
badge's entry, a GRANT with a lifetime loads one. One that matches no query is answered LATE with that effect alone; one that matches
ends the query, and its presentation is denied by the master or decided as a grant (R59, R62). -/
def Obligations.VerdictLateOrDecided : Prop :=
  ∀ (a : VerdictArgs) (s : State), s.ready .access = true →
    let c := Instr.verdict .access a
    let wrong : Prop := a.badge = 0 ∨ a.badge = 0xFFFFFFFF#32 ∨ 3 < a.role.toNat ∨ 86400 < a.lifetime.toNat
      ∨ 1 < a.outcome.toNat ∨ 1 < a.afterHours.toNat
    let grant : Prop := a.outcome = 0
    let deny : Prop := a.outcome = 1
    let found := s.passage.queries.find? fun q => q.id == a.queryId && q.badge == a.badge
    (wrong → AnsweredOnly c .access (.verdict a) s .badArgument [])
    ∧ ∀ role, ¬ wrong → [Role.staff, .escort, .visitor, .contractor][a.role.toNat]? = some role →
      ∃ s1, SameBut [.passage, .ports] s s1
      ∧ (deny → s1.passage.cache = s.passage.cache.filter fun x => x.badge != a.badge)
      ∧ (grant → a.lifetime.toNat = 0 → s1.passage.cache = s.passage.cache)
      ∧ (grant → a.lifetime.toNat ≠ 0 →
          let rest := s.passage.cache.filter fun x => s.uptime < x.expiresAt && x.badge != a.badge
          s1.passage.cache = (if rest.length < 64 then rest else rest.drop 1)
            ++ [⟨a.badge, role, a.rights, a.afterHours == 1, s.uptime + a.lifetime.toNat⟩])
      ∧ (found = none → TakenWith c .access (.verdict a) s s1 .late [] ∧ s1.passage.queries = s.passage.queries)
      ∧ (∀ q, found = some q → s1.passage.queries = s.passage.queries.filter (fun x => x.id != q.id)
          ∧ s1.passage.timeouts = 0
          ∧ (deny → ∃ e, TakenWith c .access (.verdict a) s e .ok []
              ∧ DecidedAs q.door .corridor (some .denied) q.badge .verdict .denied .deniedByMaster none [] (some q.id) s1 e)
          ∧ (grant → TakenWith c .access (.verdict a) s
              (decideGrant q.presentation .verdict ⟨role, a.rights, a.afterHours == 1⟩ s1) .ok []))

/-- A grant meets the outer door first (R65): a release that can be joined is a JOIN, a SECURED door a NEW group; else the presentation waits,
as it does when the release its query was to join can no longer be joined, or is denied at a door in FAULT or UNVERIFIED. The checks follow
in order, rights, passback, hours with the PIN, escort (R66). One that passes is admitted, but after hours in an empty zone it meets the
two-person rule (R67, R96): the first badge is held, its repeat changes nothing, its duress neither (the model's choice, log entry 47), and
another badge clears the record and is admitted with the first, at a JOIN too (the model's choice, log entry 35). A decision from the cache
grants what the badge's live entry gives, which counts as used, or denies (R62, R64). -/
def Obligations.GrantsAreDecided : Prop :=
  (∀ (s : State) (p : Presentation) (source : Source) (g : Grant), isOuter p.door = true →
    let z := zoneOf p.door
    let x := s.door p.door
    let t := decideGrant p source g s
    let told (pattern : Pattern) (outcome : Decided) (reason : PassageReason) (u : State) : Prop :=
      DecidedAs p.door .corridor (some pattern) p.badge source outcome reason none [] p.query u t
    let joinable (k : Nat) : Prop := (x.state = .queued ∨ x.state = .withdrawing ∨ x.state = .unlocked)
      ∧ (s.zonePassage z).entryGroup = some k
      ∧ ∃ r, x.release = some r ∧ r.kind = .passage ∧ r.origin = .reader ∧ r.group = some k ∧ r.opened = false
    let apart : Prop := ∀ k, ¬ joinable k
    (apart → (p.joinFlag = true ∨ (x.state ≠ .secured ∧ x.state ≠ .fault ∧ x.state ≠ .unverified)) → told .wait .wait .doorBusy s)
    ∧ (apart → p.joinFlag = false → (x.state = .fault ∨ x.state = .unverified) → told .denied .denied .doorUnavailable s)
    ∧ ∀ disp, ((∃ k, disp = .join k ∧ joinable k) ∨ (disp = .new ∧ apart ∧ p.joinFlag = false ∧ x.state = .secured)) →
      let right : Prop := g.rights.getLsbD z.val = true
      let fresh : Prop := ∀ e ∈ s.pool, e.badge ≠ some p.badge
      let day : Prop := s.hours.state = .dayHours
      let allowed : Prop := g.role ≠ .contractor ∧ g.afterHours = true
      let pin : Prop := (s.cfg z).pinAfterHours = true
      let hoursPass : Prop := day ∨ (allowed ∧ (¬ pin ∨ (source ≠ .cache ∧ p.carriesPin = true)))
      let guest : Prop := g.role = .visitor ∨ g.role = .contractor
      let inside := (s.roster z).find? fun e => e.role == .escort && e.location != .admitted
      let riding (k : Nat) := (s.roster z).find? fun e => e.role == .escort && e.group == some k
      let escort : Option Badge := match disp with
        | .join k => ((riding k).orElse fun _ => inside).bind (·.badge)
        | _ => inside.bind (·.badge)
      let me : Member := { badge := p.badge, role := g.role, escort := escort, duress := (p.terminator == .duress) }
      let pair : Prop := s.hours.state = .afterHours ∧ s.roster z = []
      let hold (pairing : Option Pairing) (held : Option HeldMember) (u : State) : Prop :=
        u.zone z = { s.zone z with pairing := pairing } ∧ u.zonePassage z = { s.zonePassage z with held := held }
          ∧ (∀ y, y ≠ z → u.zone y = s.zone y ∧ u.zonePassage y = s.zonePassage y) ∧ SameBut [.zones, .passage] s u
      (¬ right → told .denied .denied .noRights s)
      ∧ (right → ¬ fresh → told .denied .denied .passback s)
      ∧ (right → fresh → ¬ day → ¬ allowed → told .denied .denied .hours s)
      ∧ (right → fresh → ¬ day → allowed → pin → source = .cache → told .denied .denied .pinUnchecked s)
      ∧ (right → fresh → ¬ day → allowed → pin → source ≠ .cache → p.carriesPin = false → told .denied .denied .pinRequired s)
      ∧ (right → fresh → hoursPass → guest → escort = none → told .denied .denied .escortRequired s)
      ∧ (right → fresh → hoursPass → (¬ guest ∨ escort ≠ none) →
        (¬ pair → t = admitMembers p source [me] disp s)
        ∧ (pair → (s.zone z).pairing = none → ∃ u,
            hold (some ⟨p.badge, p.door, s.now + s.partCfg.pairingWindow * 1000⟩) (some ⟨g.role, p.terminator == .duress⟩) u
            ∧ told .waitPair .pairWait .none u)
        ∧ (∀ first, pair → (s.zone z).pairing = some first → first.badge = p.badge → told .waitPair .pairWait .none s)
        ∧ (∀ first held, pair → (s.zone z).pairing = some first → (s.zonePassage z).held = some held → first.badge ≠ p.badge →
            ∃ u, hold none none u ∧ t = admitMembers p source [⟨first.badge, held.role, none, held.duress⟩, me] disp u)))
  ∧ ∀ (s : State) (p : Presentation),
    let live := s.passage.cache.filter fun e => s.uptime < e.expiresAt
    ((∀ e ∈ live, e.badge ≠ p.badge) →
      DecidedAs p.door .corridor (some .denied) p.badge .cache .denied .noCredential none [] p.query s (cacheDecide p s))
    ∧ ∀ e, live.find? (fun e => e.badge == p.badge) = some e → ∃ u,
      (let rest := live.filter fun y => y.badge != p.badge
       u.passage.cache = (if rest.length < 64 then rest else rest.drop 1) ++ [e])
      ∧ u.passage.queries = s.passage.queries ∧ SameBut [.passage] s u ∧ cacheDecide p s = decideGrant p .cache ⟨e.role, e.rights, e.afterHours⟩ u

/-- Admit group of one or two members adds their ADMITTED entries at the end of the list, each in the lowest free slot with the fields of
R14; the claim's end (R19) leaves every entry up to the fields the hours and alarm units write, and in DAY_HOURS every entry whole (R3,
R14). A new group takes the next number after the last chosen that no entry and no release carries (R70). Admission (R68): a refused claim
denies the presentation with the claim's reason. Taken for a NEW group, the outer door is asked for the release, which rides with the entry
group, and refused, the entries are removed again; taken for a JOIN, the window of an UNLOCKED door starts anew (R36), and where the door
takes no restart the joining entries are removed again. -/
def Obligations.AdmissionMakesEntriesAndRelease : Prop :=
  (∀ (z : Zone) (g : Nat) (m m2 : Member) (n k : EntryNo) (s : State), lowestFree s.pool = some n →
    let entry (m : Member) (n : EntryNo) : Entry :=
      { number := n, zone := z, badge := some m.badge, role := m.role, location := .admitted, admittedAt := s.uptime,
        escort := (if m.role = .visitor ∨ m.role = .contractor then m.escort else none),
        deadline := (if s.hours.state = .afterHours then some (s.uptime + (s.cfg z).loneInterval * 60) else none),
        checkIns := 0, duress := m.duress, unescorted := false, lone := false, group := some g }
    let adds (ms : List Member) (es : List Entry) : Prop :=
      admitGroup z g ms s = claim z (fun _ => { s with pool := s.pool ++ es }) s ∧ PoolIs (admitGroup z g ms s) (s.pool ++ es)
      ∧ (s.hours.state = .dayHours → (admitGroup z g ms s).pool = s.pool ++ es)
      ∧ SameBut [.pool, .zones, .hours, .passage, .alarms, .loops, .ports] s (admitGroup z g ms s)
    adds [m] [entry m n]
    ∧ (lowestFree (s.pool ++ [entry m n]) = some k → adds [m, m2] [entry m n, entry m2 k]))
  ∧ (∀ s : State,
    (∀ k, s.groupInUse k = true ↔ (∃ e ∈ s.pool, e.group = some k) ∨ ∃ y r, (s.door y).release = some r ∧ r.group = some k)
    ∧ (s.passage.lastGroup ≤ 255 → (∃ k, 1 ≤ k ∧ k ≤ 255 ∧ s.groupInUse k = false) →
      ∃ j, j < 255 ∧ newGroup s = (s.passage.lastGroup + j) % 255 + 1 ∧ s.groupInUse (newGroup s) = false
        ∧ ∀ i, i < j → s.groupInUse ((s.passage.lastGroup + i) % 255 + 1) = true))
  ∧ ∀ (s : State) (p : Presentation) (source : Source) (ms : List Member), isOuter p.door = true →
    let z := zoneOf p.door
    let x := s.door p.door
    let served : Prop := (s.zone z).inService = true
    let conflict : Prop := (∃ m ∈ ms, ∃ e ∈ s.pool, e.badge = some m.badge) ∨ ¬ (ms.map (·.badge)).Nodup
    let full : Prop := s.freeSlots < ms.length ∨ (s.cfg z).cap < (s.roster z).length + ms.length
    let taken : Prop := served ∧ ¬ conflict ∧ ¬ full
    let told (pattern : Pattern) (outcome : Decided) (reason : PassageReason) (group : Option Nat) (entries : List EntryNo)
        (u t : State) : Prop :=
      DecidedAs p.door .corridor (some pattern) p.badge source outcome reason group entries p.query u t
    let refusals (u t : State) : Prop := (¬ served → told .denied .denied .wrongState none [] u t)
      ∧ (served → conflict → told .denied .denied .rosterConflict none [] u t)
      ∧ (served → ¬ conflict → full → told .denied .denied .rosterFull none [] u t)
    let made (v : State) : List EntryNo :=
      ((v.roster z).filter fun e => ms.any fun m => e.badge == some m.badge).map (·.number)
    let removed (sel : Entry → Bool) (v w : State) : Prop := PoolIs w (v.pool.filter fun e => !(e.zone == z && sel e))
      ∧ SameBut [.pool, .zones, .hours, .passage, .alarms, .loops, .ports] v w
    (let n := newGroup s
     let u : State := { s with passage.lastGroup := n }
     let t := admitMembers p source ms .new s
     let v := admitGroup z n ms u
     refusals u t
     ∧ (taken → x.state = .secured → s.egressOnly z = false → ∃ w, told .granted .admitted .none (some n) (made v) w t
        ∧ (w.zonePassage z).entryGroup = some n
        ∧ ((w.door p.door).release.map (fun r => (r.kind, r.origin, r.group)) = some (.passage, .reader, some n)
            ∨ (8 ≤ (s.rail (s.railOf p.door)).queue.length ∧ (w.door p.door).release = none))
        ∧ SameBut [.doors, .passage, .loops] v w)
     ∧ (taken → (x.state ≠ .secured ∨ s.egressOnly z = true) → ∃ w, told .denied .denied .doorUnavailable none [] w t
        ∧ removed (fun e => e.group == some n) v w))
    ∧ ∀ k,
      let t := admitMembers p source ms (.join k) s
      let v := admitGroup z k ms s
      let early : Prop := x.state = .queued ∨ x.state = .withdrawing ∨ x.state = .unlocked
      refusals s t
      ∧ (taken → early → ∃ w, told .granted .joined .none (some k) (made v) w t
        ∧ w.door p.door = (if x.state = .unlocked then
            { x with release := x.release.map fun r => { r with window := some (s.now + s.partCfg.releaseWindow * 1000) } } else x)
        ∧ OtherDoors p.door v w ∧ SameBut [.doors] v w)
      ∧ (taken → ¬ early → ∃ w, told .wait .wait .doorBusy none [] w t
        ∧ removed (fun e => ms.any fun m => e.badge == some m.badge) v w)

/-- CACHE_LOAD of one entry: the badge's entry is replaced or added as the most recently used, the least recently used leaving a full
cache, with the fields given, expiring at now plus its lifetime; of several, one after another (R62, R63). It is refused whole when one is
out of range or two name one badge (R63), or when it names none or a mark is outside its codes (the model's choice, log entry 15). CACHE_PURGE
removes the badge's entry or every entry and is answered with the number removed (R63), one byte (the model's choice, log entry 51). -/
def Obligations.CacheLoadAndPurge : Prop :=
  ∀ s : State, s.ready .access = true →
    let bad (a : CacheArgs) : Prop := a.badge = 0 ∨ a.badge = 0xFFFFFFFF#32 ∨ 3 < a.role.toNat ∨ 1 < a.afterHours.toNat
      ∨ a.lifetime.toNat = 0 ∨ 86400 < a.lifetime.toNat
    let live := s.passage.cache.filter fun x => s.uptime < x.expiresAt
    (∀ a, (cacheArg s a = none ↔ bad a)
      ∧ ∀ x, cacheArg s a = some x ↔ ¬ bad a ∧ [Role.staff, .escort, .visitor, .contractor][a.role.toNat]? = some x.role
          ∧ x.badge = a.badge ∧ x.rights = a.rights ∧ x.afterHours = (a.afterHours == 1) ∧ x.expiresAt = s.uptime + a.lifetime.toNat)
    ∧ (∀ a x, cacheArg s a = some x → ∃ e, TakenWith (.cacheLoad .access [a]) .access (.cacheLoad [a]) s e .ok []
      ∧ (let rest := live.filter fun y => y.badge != a.badge
         e.passage.cache = (if rest.length < 64 then rest else rest.drop 1) ++ [x])
      ∧ e.passage.queries = s.passage.queries ∧ SameBut [.passage, .ports] s e)
    ∧ (∀ es : List CacheArgs, es ≠ [] → es.length ≤ 20 → (es.map (·.badge)).Nodup → (∀ a ∈ es, ¬ bad a) →
      TakenWith (.cacheLoad .access es) .access (.cacheLoad es) s
        ((es.filterMap (cacheArg s)).foldl (fun t x => cacheInsert x t) (arrive .access (.cacheLoad es) s)) .ok [])
    ∧ (∀ es : List CacheArgs, es.length ≤ 20 → (es = [] ∨ (∃ a ∈ es, bad a) ∨ ¬ (es.map (·.badge)).Nodup) →
      AnsweredOnly (.cacheLoad .access es) .access (.cacheLoad es) s .badArgument [])
    ∧ (∀ b, badgeOk b = true → ∃ e, TakenWith (.cachePurge .access (.badge b)) .access (.cachePurge (.badge b)) s e .ok
        (byte1 (live.filter fun x => x.badge == b).length)
      ∧ e.passage.cache = (s.passage.cache.filter fun x => x.badge != b) ∧ SameBut [.passage, .ports] s e)
    ∧ ∃ e, TakenWith (.cachePurge .access .all) .access (.cachePurge .all) s e .ok (byte1 live.length)
      ∧ e.passage.cache = [] ∧ SameBut [.passage, .ports] s e

/-- SET_CLOCK within its range sets the clock and its flag and evaluates the hours state; above it, nothing changes (R83, R86). -/
def Obligations.SetClockSetsTheClock : Prop :=
  ∀ (v : Word) (s : State), s.ready .access = true →
    (604799 < v.toNat → AnsweredOnly (.setClock .access v) .access (.setClock v) s .badArgument [])
    ∧ (v.toNat ≤ 604799 → ∃ e, TakenWith (.setClock .access v) .access (.setClock v) s e .ok
        (byte1 (finishRequest (arrive .access (.setClock v) s) e).hours.state.code)
      ∧ e.hours.clock = v.toNat ∧ e.hours.clockValid = true
      ∧ (e.hours.state = .dayHours ↔ ∃ w ∈ s.hours.schedule, w.holds v.toNat = true)
      ∧ SameBut [.hours, .ports, .passage, .pool, .zones, .alarms, .loops] s e)

/-- HOLD_DOOR on a SECURED door of a zone whose policy is NORMAL: with a wait reason of R30 the door is QUEUED, with none it goes to its
rail: WITHDRAWING, QUEUED with RAIL, or ended RAIL_BUSY (log entry 22); otherwise WRONG_STATE (R29, R46, R48, R49). -/
def Obligations.HoldDoorAttachesARelease : Prop :=
  ∀ (b : Byte) (d : DoorId) (s : State), s.ready .access = true → doorArg b = some d →
    let c := Instr.holdDoor .access b
    let r := Request.holdDoor b
    let rail := s.railOf d
    ((s.door d).state ≠ .secured ∨ s.egressOnly (zoneOf d) = true → AnsweredOnly c .access r s .wrongState [])
    ∧ ((s.door d).state = .secured → s.egressOnly (zoneOf d) = false →
      ((otherReasons s d .hold).other = true →
        ∃ e, TakenWith c .access r s e .ok [1] ∧ (e.door d).state = .queued
          ∧ (e.door d).release = some
              { kind := .hold, origin := .master, group := none, window := none, wait := (otherReasons s d .hold),
                queuedAt := s.now, opened := false, cut := false, lapsed := false }
          ∧ OtherDoors d s e ∧ SameBut [.doors, .ports, .passage] s e)
      ∧ ((otherReasons s d .hold).other = false → (s.rail rail).queue = [] → s.railHasRoom rail = true →
        ∃ e, TakenWith c .access r s e .ok [2] ∧ (e.door d).state = .withdrawing
          ∧ (e.door d).boltTimer = some (s.now + 2 * (s.cfg (zoneOf d)).travelLimit)
          ∧ OtherDoors d s e ∧ SameBut [.doors, .ports, .passage, .loops] s e)
      ∧ ((otherReasons s d .hold).other = false → ((s.rail rail).queue ≠ [] ∨ s.railHasRoom rail = false) →
        ((s.rail rail).queue.length < 8 → ∃ e, TakenWith c .access r s e .ok [1] ∧ (e.door d).state = .queued
          ∧ (e.door d).release.map (·.wait) = some ⟨false, false, false, true⟩
          ∧ (e.rail rail).queue = (s.rail rail).queue ++ [d] ∧ OtherDoors d s e ∧ SameBut [.doors, .ports, .passage] s e)
        ∧ (8 ≤ (s.rail rail).queue.length → ∃ e, TakenWith c .access r s e .ok [1] ∧ (e.door d).state = .secured
          ∧ (e.door d).release = none ∧ OtherDoors d s e ∧ SameBut [.doors, .ports, .passage] s e)))

/-- SECURE_DOOR cuts short a non-egress release by the door's state, a HOLD release first made PASSAGE with relock on close (R44, R46); that
a HOLD release cut in QUEUED leaves relock on close set is the model's reading (log entry 30). -/
def Obligations.SecureDoorCutsShort : Prop :=
  ∀ (b : Byte) (d : DoorId) (s : State), s.ready .access = true → doorArg b = some d →
    let c := Instr.secureDoor .access b
    ((s.door d).release = none → AnsweredOnly c .access (.secureDoor b) s .ok [])
    ∧ (∀ r, (s.door d).release = some r → r.kind = .egress → AnsweredOnly c .access (.secureDoor b) s .wrongState [])
    ∧ (∀ r, (s.door d).release = some r → r.kind ≠ .egress → ∃ e, TakenWith c .access (.secureDoor b) s e .ok []
      ∧ ((s.door d).state = .queued → (e.door d).state = .secured ∧ (e.door d).release = none
          ∧ (e.door d).securedAt = (s.door d).securedAt ∧ (e.door d).settleEnds = (s.door d).settleEnds
          ∧ d ∉ (e.rail (s.railOf d)).queue)
      ∧ ((s.door d).state = .withdrawing → (e.door d).state = .withdrawing
          ∧ (e.door d).release = some { r with kind := .passage, cut := true })
      ∧ ((s.door d).state = .unlocked → (e.door d).state = .throwing)
      ∧ ((s.door d).state = .opened → (e.door d).state = .opened ∧ (e.door d).relock = true)
      ∧ ((s.door d).state = .throwing → (e.door d).state = .throwing ∧ (r.kind = .passage → e.door d = s.door d))
      ∧ (r.kind = .hold → (e.door d).relock = true)
      ∧ OtherDoors d s e ∧ SameBut [.doors, .ports, .passage, .loops] s e)

/-! ### The suppression port -/

/-- DETECT adds a detector: NORMAL enters ALERT, and a set at the coincidence count confirms the zone (R121, R122, R124). CLEAR_DETECT
removes one, and ALERT with an empty set enters NORMAL (R121). Each is answered with the zone's state and the set's size as the request left
them (R121). What the OK of one that changes nothing carries is the model's choice (log entry 45). -/
def Obligations.DetectionSetFollowsRequests : Prop :=
  ∀ (b d : Byte) (z : Zone) (s : State), s.ready .suppression = true → zoneArg b = some z →
    let r := s.suppRec z
    let carries (q : Request) (e : State) : List Byte := let t := finishRequest (arrive .suppression q s) e
      byte1 (t.suppRec z).state.code ++ byte1 (t.suppRec z).detectors.length
    (d ∈ r.detectors → AnsweredOnly (.detect .suppression b d) .suppression (.detect b d) s .ok
        (byte1 r.state.code ++ byte1 r.detectors.length))
    ∧ (d ∉ r.detectors → 8 ≤ r.detectors.length →
        AnsweredOnly (.detect .suppression b d) .suppression (.detect b d) s .badArgument [])
    ∧ (d ∉ r.detectors → r.detectors.length < 8 → ∃ e,
      TakenWith (.detect .suppression b d) .suppression (.detect b d) s e .ok (carries (.detect b d) e)
      ∧ (e.suppRec z).detectors = r.detectors ++ [d] ∧ (e.suppRec z).holds = r.holds
      ∧ (if (r.state = .normal ∨ r.state = .alert) ∧ (s.cfg z).coincidence ≤ r.detectors.length + 1 then
          (e.suppRec z).confirmed = true ∧ (e.suppRec z).countdown = (s.cfg z).preDischarge * 1000
          ∧ (e.suppRec z).state = (if r.holds.any then .held else .preDischarge)
        else (e.suppRec z).state = (if r.state = .normal then .alert else r.state) ∧ (e.suppRec z).confirmed = r.confirmed)
      ∧ (∀ y, y ≠ z → e.suppRec y = s.suppRec y) ∧ SameBut [.supp, .ports] s e)
    ∧ (d ∉ r.detectors → AnsweredOnly (.clearDetect .suppression b d) .suppression (.clearDetect b d) s .ok
        (byte1 r.state.code ++ byte1 r.detectors.length))
    ∧ (d ∈ r.detectors → ∃ e,
      TakenWith (.clearDetect .suppression b d) .suppression (.clearDetect b d) s e .ok (carries (.clearDetect b d) e)
      ∧ (e.suppRec z).detectors = r.detectors.filter (· != d) ∧ (e.suppRec z).confirmed = r.confirmed
      ∧ (e.suppRec z).state = (if r.state = .alert ∧ r.detectors.filter (· != d) = [] then .normal else r.state)
      ∧ (∀ y, y ≠ z → e.suppRec y = s.suppRec y) ∧ SameBut [.supp, .ports] s e)

/-- HOLD_ZONE and UNHOLD_ZONE write PANEL_HOLD outside ISOLATED and are answered with the state they leave; the value already held changes
nothing (R127); that its OK carries the state is the model's choice (log entry 45). A claim hands on a certainty it changed (R19), and the hold reasons take it there (R126). New hold
reasons take a zone in PREDISCHARGE to HELD with its countdown frozen (R128), and none left takes one in HELD back with its countdown, or the
resume time if that is longer, its halves of the force window discarded; an abort on a zone a half names closes the window (R129, R144). Each
such change sets the zone's outputs for its new state, so that a pattern entered anew begins with its sounding part (R145). -/
def Obligations.HoldReasonsAreWritten : Prop :=
  (∀ (b : Byte) (z : Zone) (s : State), s.ready .suppression = true → zoneArg b = some z →
    let r := s.suppRec z
    let carries (q : Request) (e : State) : List Byte :=
      byte1 ((finishRequest (arrive .suppression q s) e).suppRec z).state.code
    (r.state = .isolated → AnsweredOnly (.holdZone .suppression b) .suppression (.holdZone b) s .wrongState []
        ∧ AnsweredOnly (.unholdZone .suppression b) .suppression (.unholdZone b) s .wrongState [])
    ∧ (r.state ≠ .isolated → r.holds.panelHold = false →
      AnsweredOnly (.unholdZone .suppression b) .suppression (.unholdZone b) s .ok (byte1 r.state.code)
      ∧ ∃ e, TakenWith (.holdZone .suppression b) .suppression (.holdZone b) s e .ok (carries (.holdZone b) e)
        ∧ e.suppRec z = { r with holds := ({ r.holds with panelHold := true }) }
        ∧ (∀ y, y ≠ z → e.suppRec y = s.suppRec y) ∧ SameBut [.supp, .ports] s e)
    ∧ (r.state ≠ .isolated → r.holds.panelHold = true →
      AnsweredOnly (.holdZone .suppression b) .suppression (.holdZone b) s .ok (byte1 r.state.code)
      ∧ ∃ e, TakenWith (.unholdZone .suppression b) .suppression (.unholdZone b) s e .ok (carries (.unholdZone b) e)
        ∧ e.suppRec z = { r with holds := ({ r.holds with panelHold := false }) }
        ∧ (∀ y, y ≠ z → e.suppRec y = s.suppRec y) ∧ SameBut [.supp, .ports] s e))
  ∧ (∀ (touched : Bool) (z : Zone) (core : State → State) (s : State), let own := endClaim touched z s (core s)
    own.certainty z ≠ s.certainty z →
      HandOn.certainty z (own.certainty z) ∈ (claimWith touched z core s).work.handOns)
  ∧ (∀ (z : Zone) (c : Certainty) (s : State), takeHandOn (.certainty z c) s
      = changeHolds z { (s.suppRec z).holds with occupied := c == .occupied, uncertain := c == .uncertain } s)
  ∧ ∀ (z : Zone) (h : HoldSet) (s : State),
    let r := s.suppRec z
    let t := changeHolds z h s
    let closes : Prop := h.abort = true ∧ r.holds.abort = false ∧ s.halfNames z = true
    (t.suppRec z).holds = h ∧ (t.suppRec z).confirmed = r.confirmed ∧ (t.suppRec z).detectors = r.detectors
    ∧ (r.state = .preDischarge →
        (t.suppRec z).state = (if h.any then .held else .preDischarge) ∧ (t.suppRec z).countdown = r.countdown)
    ∧ (r.state = .held → h.any = true → (t.suppRec z).state = .held ∧ (t.suppRec z).countdown = r.countdown)
    ∧ (r.state = .held → h.any = false → (t.suppRec z).state = .preDischarge
        ∧ (t.suppRec z).countdown = max r.countdown ((s.cfg z).resume * 1000)
        ∧ t.supp.window = (if s.halfNames z then ⟨s.supp.window.closesAt, none, none⟩ else s.supp.window))
    ∧ (r.state ≠ .preDischarge → r.state ≠ .held → (t.suppRec z).state = r.state ∧ (t.suppRec z).countdown = r.countdown)
    ∧ (closes → t.supp.window = ⟨none, none, none⟩)
    ∧ (¬ closes → (r.state ≠ .held ∨ h.any = true) → t.supp.window = s.supp.window)
    ∧ ((t.suppRec z).state = r.state → t.output z = s.output z)
    ∧ ((t.suppRec z).state ≠ r.state → (t.output z).release = false ∧ (t.output z).vent = false
        ∧ (t.output z).pattern = (if h.any then .hold else .warn)
        ∧ ((s.output z).pattern ≠ (t.output z).pattern → (t.output z).sounding = true ∧ (t.output z).since = s.now))
    ∧ { t.lines with outputs := s.lines.outputs } = s.lines ∧ (∀ y, y ≠ z → t.output y = s.output y)
    ∧ (∀ y, y ≠ z → t.suppRec y = s.suppRec y) ∧ SameBut [.supp, .ports, .lines] s t

/-- CANCEL, answered with the state it leaves (R137), VENT (R135) and RESTORE (R136). CANCEL of a zone in HELD that a held half names discards the halves, the window OPEN
(R144); every other zone's record is as it was. -/
def Obligations.CancelVentAndRestore : Prop :=
  ∀ (b : Byte) (z : Zone) (s : State), s.ready .suppression = true → zoneArg b = some z →
    let r := s.suppRec z
    (r.state ≠ .preDischarge → r.state ≠ .held →
      AnsweredOnly (.cancel .suppression b) .suppression (.cancel b) s .wrongState [])
    ∧ ((r.state = .preDischarge ∨ r.state = .held) → s.bothMoving z = true →
      AnsweredOnly (.cancel .suppression b) .suppression (.cancel b) s .doorsMoving [])
    ∧ ((r.state = .preDischarge ∨ r.state = .held) → s.bothMoving z = false → ∃ e,
      TakenWith (.cancel .suppression b) .suppression (.cancel b) s e .ok
        (byte1 ((finishRequest (arrive .suppression (.cancel b) s) e).suppRec z).state.code)
      ∧ e.suppRec z
          = { r with confirmed := false, countdown := 0, pullSeen := false,
                     state := (if r.detectors = [] then .normal else .alert) }
      ∧ e.supp.window = (if r.state = .held ∧ s.halfNames z = true then ⟨s.supp.window.closesAt, none, none⟩ else s.supp.window)
      ∧ (∀ y, y ≠ z → e.suppRec y = s.suppRec y)
      ∧ HandOn.evacuationLeft z ∈ e.work.handOns ∧ SameBut [.supp, .ports] s e)
    ∧ ((r.state = .releaseFault ∨ (r.state = .soak ∧ r.soakComplete = true)) → s.bothMoving z = false → ∃ e,
      TakenWith (.vent .suppression b) .suppression (.vent b) s e .ok [] ∧ e.suppRec z = { r with state := .vent }
      ∧ e.supp.window = s.supp.window ∧ (∀ y, y ≠ z → e.suppRec y = s.suppRec y)
      ∧ HandOn.evacuationLeft z ∈ e.work.handOns ∧ SameBut [.supp, .ports] s e)
    ∧ ((r.state = .releaseFault ∨ (r.state = .soak ∧ r.soakComplete = true)) → s.bothMoving z = true →
      AnsweredOnly (.vent .suppression b) .suppression (.vent b) s .doorsMoving [])
    ∧ (r.state ≠ .releaseFault → (r.state ≠ .soak ∨ r.soakComplete = false) →
      AnsweredOnly (.vent .suppression b) .suppression (.vent b) s .wrongState [])
    ∧ (r.state = .vent → doorAtRest s (outerDoor z) = true → doorAtRest s (innerDoor z) = true → ∃ e,
      TakenWith (.restore .suppression b) .suppression (.restore b) s e .ok []
      ∧ e.suppRec z
          = { r with state := .normal, detectors := [], confirmed := false, cause := none, soakComplete := false,
                     pullSeen := false, countdown := 0 }
      ∧ e.supp.window = s.supp.window ∧ (∀ y, y ≠ z → e.suppRec y = s.suppRec y)
      ∧ e.alarmPresent .releaseFault (some z) .none = false ∧ SameBut [.supp, .ports, .alarms] s e)
    ∧ (r.state = .vent → (doorAtRest s (outerDoor z) = false ∨ doorAtRest s (innerDoor z) = false) →
      AnsweredOnly (.restore .suppression b) .suppression (.restore b) s .doorsMoving [])
    ∧ (r.state ≠ .vent → AnsweredOnly (.restore .suppression b) .suppression (.restore b) s .wrongState [])

/-- The halves of a force request from the two ports (R131, R143). WRONG_STATE: the window CLOSED, the zone not HELD, ABORT or PANEL_HOLD
present, or a half that names another zone. This port's half already set: OK, and nothing changes. Else the first half is held, and the
second completes the request, its reply carrying the zone's state. -/
def Obligations.ForceNeedsBothHalves : Prop :=
  ∀ (b : Byte) (z : Zone) (side : Bool) (s : State), zoneArg b = some z →
    let port : PortId := if side then .suppression else .guard
    let c := if side then Instr.forceRelease .suppression b else Instr.concurForce .guard b
    let r := if side then Request.forceRelease b else Request.concurForce b
    let w := s.supp.window
    let mine := if side then w.suppressionHalf else w.guardHalf
    let other := if side then w.guardHalf else w.suppressionHalf
    let x := s.suppRec z
    let wrong : Prop := w.closesAt = none ∨ x.state ≠ .held ∨ x.holds.abort = true ∨ x.holds.panelHold = true
      ∨ (∃ y, other = some y ∧ y ≠ z) ∨ (∃ y, mine = some y ∧ y ≠ z)
    s.ready port = true →
      (wrong → AnsweredOnly c port r s .wrongState [])
      ∧ (¬ wrong → mine = some z → AnsweredOnly c port r s .ok [])
      ∧ (¬ wrong → mine = none → other = none → ∃ e, TakenWith c port r s e .ok []
          ∧ e.supp.window = (if side then { w with suppressionHalf := (some z) } else { w with guardHalf := (some z) })
          ∧ e.supp.zones = s.supp.zones ∧ SameBut [.supp, .ports] s e)
      ∧ (¬ wrong → mine = none → other = some z → ∃ e, TakenWith c port r s e .ok (byte1 SuppState.releasing.code)
          ∧ e.suppRec z = { x with state := .releasing, cause := (some .forced), countdown := 0,
                                   deadline := (some (s.now + (s.cfg z).confirmTime * 1000)) }
          ∧ (∀ y, y ≠ z → e.suppRec y = s.suppRec y) ∧ e.supp.window = ⟨none, none, none⟩
          ∧ SameBut [.supp, .ports] s e)

/-! ### The guard port -/

/-- A raising. A re-raise, whether or not the queue is full (R102): the record's new values at its place; where the key has one record,
the distress count of the zone rises by one exactly when a distress condition was ENDED. A new alarm (R103): its record at the place R101
gives it; in a full queue an ENDED and ACKNOWLEDGED record is removed for it, the oldest (R104), or the last when it is less urgent is
displaced, its latch set when it was a PRESENT distress (R105), or it is not stored and counted (R106), each with its notices in order.
That an unstored alarm's notice is made of the record it would have made is the model's choice (log entry 41). -/
def Obligations.ReRaiseKeepsPlace : Prop :=
  ∀ (kind : AlarmKind) (zone : Option Zone) (subject : Subject) (s : State),
    let q := s.alarms.queue
    let found := q.find? fun x => x.hasKey kind zone subject
    let t := raiseAlarm kind zone subject s
    let new : AlarmRec := ⟨kind, zone, subject, true, false, s.uptime, s.uptime, 1⟩
    let without (old : AlarmRec) : List AlarmRec := q.filter fun x => !x.hasKey old.kind old.zone old.subject
    let done (x : AlarmRec) : Bool := !x.present && x.acknowledged
    let counters : Prop := t.alarms.overflowMark = s.alarms.overflowMark ∧ t.alarms.overflowCount = s.alarms.overflowCount
    let latches : Prop := ∀ z, t.latch z = s.latch z
    let tells (ns : List DueNotice) : Prop := t.work.due = s.work.due ++ ns
    (∀ r, found = some r →
      t.alarms.queue
        = q.map (fun x => if x.hasKey kind zone subject then
            { x with present := true, acknowledged := false, lastRaised := s.uptime, raises := (min (x.raises + 1) 255) } else x)
      ∧ t.alarms.queue.length = q.length ∧ counters ∧ latches
      ∧ tells [.alarmRaised { r with present := true, acknowledged := false, lastRaised := s.uptime,
                                     raises := (min (r.raises + 1) 255) } true]
      ∧ ((q.filter fun x => x.hasKey kind zone subject) = [r] → ∀ z : Zone,
          t.distress z = s.distress z + (if kind.distress = true ∧ zone = some z ∧ r.present = false then 1 else 0)))
    ∧ (found = none → q.length < 32 → AlarmPlaced new q t.alarms.queue ∧ counters ∧ latches ∧ tells [.alarmRaised new true]
      ∧ ∀ z : Zone, t.distress z = s.distress z + (if kind.distress = true ∧ zone = some z then 1 else 0))
    ∧ (found = none → 32 ≤ q.length →
      (∀ xs old ys, q = xs ++ old :: ys → done old = true → (∀ x ∈ xs, done x = true → old.firstRaised < x.firstRaised) →
        (∀ y ∈ ys, done y = true → old.firstRaised ≤ y.firstRaised) →
        AlarmPlaced new (without old) t.alarms.queue ∧ counters ∧ latches
        ∧ tells [.alarmChanged old .removed, .alarmRaised new true])
      ∧ ((∀ x ∈ q, done x = false) → ∀ last, q.getLast? = some last →
        (kind.priority < last.kind.priority → AlarmPlaced new (without last) t.alarms.queue ∧ counters
          ∧ (∀ z : Zone, t.latch z = (s.latch z || (last.present && last.kind.distress && last.zone == some z)))
          ∧ tells [.alarmDisplaced last new, .alarmRaised new true])
        ∧ (last.kind.priority ≤ kind.priority → t.alarms.queue = q ∧ t.alarms.generation = s.alarms.generation
          ∧ t.alarms.overflowMark = true ∧ t.alarms.overflowCount = min (s.alarms.overflowCount + 1) 255
          ∧ (∀ z : Zone, t.latch z = (s.latch z || (kind.distress && zone == some z))) ∧ tells [.alarmRaised new false])))
    ∧ SameBut [.alarms] s t

/-- An ending sets the PRESENT record of its key ENDED, every other record and every place as before, and has no effect without one
(R108). The endings that one request brings are noticed in queue order (R107); that they stand from the place of the first on, the other
notices in the order of their changes, is the model's choice (log entry 39). -/
def Obligations.EndingEndsPresentRecord : Prop :=
  (∀ (kind : AlarmKind) (zone : Option Zone) (subject : Subject) (s : State),
    (endAlarm kind zone subject s).alarms.queue
      = s.alarms.queue.map (fun x => if x.hasKey kind zone subject then { x with present := false } else x)
    ∧ (s.alarmPresent kind zone subject = false → endAlarm kind zone subject s = s)
    ∧ (∀ k z x, (k ≠ kind ∨ z ≠ zone ∨ x ≠ subject) →
        (endAlarm kind zone subject s).alarmPresent k z x = s.alarmPresent k z x)
    ∧ (endAlarm kind zone subject s).alarmPresent kind zone subject = false
    ∧ SameBut [.alarms] s (endAlarm kind zone subject s))
  ∧ ∀ (queue : List AlarmRec) (due : List DueNotice),
    let ends (n : DueNotice) : Bool := queue.any fun r => n.tellsEnd due r
    let t := endingsInQueueOrder queue due
    t.filter ends = queue.flatMap (fun r => due.filter (DueNotice.tellsEnd due r))
    ∧ t.filter (fun n => !ends n) = due.filter (fun n => !ends n)
    ∧ t.takeWhile (fun n => !ends n) = due.takeWhile (fun n => !ends n)

/-- ACK_ALARM and CLEAR_ALARM of a key and of ALL (R112, R113). ALL is answered with the number of records whose handling changed, or that were
removed, and each gives its ALARM_CHANGED. That the number takes one byte (log entry 51), that these notices come in queue order (log
entry 61), and that a seen count of 0 is out of range (log entry 15) is the model's choice. -/
def Obligations.AckAndClearAlarm : Prop :=
  ∀ s : State, s.ready .guard = true →
    (∀ (k : KeyArgs) (r : AlarmRec), findAlarm k s = some r →
      (∀ seen : Option Byte, (∀ n ∈ seen, n.toNat ≠ 0 ∧ n.toNat = r.raises) →
        ∃ e, TakenWith (.ackAlarm .guard (.key k seen)) .guard (.ackAlarm (.key k seen)) s e .ok []
        ∧ (r.acknowledged = true → e.alarms.queue = s.alarms.queue)
        ∧ (r.acknowledged = false → e.alarms.queue = s.alarms.queue.map (fun x =>
            if x.hasKey r.kind r.zone r.subject then { x with acknowledged := true } else x))
        ∧ SameBut [.alarms, .ports] s e)
      ∧ (∀ n : Byte, n.toNat ≠ 0 → n.toNat ≠ r.raises →
          AnsweredOnly (.ackAlarm .guard (.key k (some n))) .guard (.ackAlarm (.key k (some n))) s .wrongState [])
      ∧ AnsweredOnly (.ackAlarm .guard (.key k (some 0))) .guard (.ackAlarm (.key k (some 0))) s .badArgument []
      ∧ (r.present = true → AnsweredOnly (.clearAlarm .guard (.key k)) .guard (.clearAlarm (.key k)) s .wrongState [])
      ∧ (r.present = false → ∃ e, TakenWith (.clearAlarm .guard (.key k)) .guard (.clearAlarm (.key k)) s e .ok []
        ∧ e.alarms.queue = (s.alarms.queue.filter fun x => !x.hasKey r.kind r.zone r.subject)
        ∧ SameBut [.alarms, .ports] s e))
    ∧ (∀ (k : KeyArgs) (seen : Option Byte), findAlarm k s = none →
      AnsweredOnly (.ackAlarm .guard (.key k seen)) .guard (.ackAlarm (.key k seen)) s .badArgument []
      ∧ AnsweredOnly (.clearAlarm .guard (.key k)) .guard (.clearAlarm (.key k)) s .badArgument [])
    ∧ (∃ e, TakenWith (.ackAlarm .guard .all) .guard (.ackAlarm .all) s e .ok
        (byte1 (s.alarms.queue.filter fun x => !x.acknowledged).length)
      ∧ e.alarms.queue = s.alarms.queue.map (fun x => { x with acknowledged := true })
      ∧ e.work.due = s.work.due ++ (s.alarms.queue.filter fun x => !x.acknowledged).map
          (fun x => .alarmChanged { x with acknowledged := true } .acknowledged)
      ∧ e.alarms.overflowMark = false ∧ e.alarms.overflowCount = 0 ∧ SameBut [.alarms, .ports] s e)
    ∧ ∃ e, TakenWith (.clearAlarm .guard .all) .guard (.clearAlarm .all) s e .ok
        (byte1 (s.alarms.queue.filter fun x => !x.present).length)
      ∧ e.work.due = s.work.due ++ (s.alarms.queue.filter fun x => !x.present).map (fun x => .alarmChanged x .cleared)
      ∧ (∀ x ∈ e.alarms.queue, x.present = true)
      ∧ (∀ x ∈ s.alarms.queue, (∀ y ∈ s.alarms.queue, y.hasKey x.kind x.zone x.subject = true → y.present = true) →
          x ∈ e.alarms.queue)
      ∧ SameBut [.alarms, .ports] s e

/-- RESOLVE_ZONE: the zone's distress count is then 0, and the reply says how many conditions ended and whether the latch was set
(R114); that the count takes one byte is the model's choice (log entry 51). -/
def Obligations.ResolveZoneEndsDistress : Prop :=
  ∀ (b : Byte) (z : Zone) (s : State), s.ready .guard = true → zoneArg b = some z →
    ∃ e, TakenWith (.resolveZone .guard b) .guard (.resolveZone b) s e .ok
        (byte1 (distressKeys s z).length ++ byteFlag (s.latch z))
      ∧ e.distress z = 0 ∧ SameBut [.alarms, .ports, .pool, .zones, .hours, .loops] s e

/-- VERIFY_ZONE. Its three tests in order (R22): a door neither SECURED nor UNVERIFIED is WRONG_STATE; a count below the badged entries of its
place, ROSTER_CONFLICT; counts above the cap, or fewer slots free and freed than anonymous entries to make, ROSTER_FULL; nothing changes.
Passed, what its own claim leaves, with the generation and certainty it is answered with (R22); and that a claim which removes or creates an
entry raises the generation and gives ZONE_CHANGED (R12). -/
def Obligations.VerifyZoneReplacesCounts : Prop :=
  ∀ (b inner vestibule : Byte) (z : Zone) (s : State), s.ready .guard = true → zoneArg b = some z →
    let c := Instr.verifyZone .guard b inner vestibule
    let r := Request.verifyZone b inner vestibule
    let s1 := arrive .guard r s
    let badged (l : Location) : Nat := (s.pool.filter fun e => e.zone == z && e.badge.isSome && e.location == l).length
    let leaves (e : Entry) : Bool := e.zone == z && (e.location == .admitted || e.badge.isNone)
    let rests (d : DoorId) : Prop := (s.door d).state = .secured ∨ (s.door d).state = .unverified
    let atRest : Prop := rests (outerDoor z) ∧ rests (innerDoor z)
    let vouched : Prop := badged .inner ≤ inner.toNat ∧ badged .vestibule ≤ vestibule.toNat
    let made : Nat := (inner.toNat - badged .inner) + (vestibule.toNat - badged .vestibule)
    let room : Prop := inner.toNat + vestibule.toNat ≤ (s.cfg z).cap
      ∧ made ≤ (s.pool.filter leaves).length + (96 - s.pool.length)
    let touched : Bool := s.pool.any leaves || badged .inner < inner.toNat || badged .vestibule < vestibule.toNat
    (¬ atRest → AnsweredOnly c .guard r s .wrongState [])
    ∧ (atRest → ¬ vouched → AnsweredOnly c .guard r s .rosterConflict [])
    ∧ (atRest → vouched → ¬ room → AnsweredOnly c .guard r s .rosterFull [])
    ∧ (atRest → vouched → room → ∃ core,
      let own := endClaim touched z s1 core
      TakenWith c .guard r s (claimWith touched z (fun _ => core) s1) .ok
        (byte2 (own.zone z).generation.toNat ++ byte1 (own.certainty z).code)
      ∧ (touched = true → (own.zone z).generation = (s.zone z).generation + 1 ∧ DueNotice.zone z ∈ own.work.due)
      ∧ (core.zone z).headcount = inner.toNat ∧ (core.zone z).headcountValid = true
      ∧ (core.zone z).reasons = ReasonSet.empty ∧ (core.zone z).late = ReasonSet.empty
      ∧ (∃ anonymous : List Entry, core.pool = s.pool.filter (fun e => !leaves e) ++ anonymous
          ∧ ∀ e ∈ anonymous, e.zone = z ∧ e.badge = none ∧ (e.location = .inner ∨ e.location = .vestibule))
      ∧ (PoolNumbered s → core.countAt z .inner = inner.toNat ∧ core.countAt z .vestibule = vestibule.toNat)
      ∧ SameBut [.pool, .zones, .ports] s core)

/-- REMOVE_OCCUPANT removes the entry of a badge and leaves headcount and reasons (R23). -/
def Obligations.RemoveOccupantRemovesEntry : Prop :=
  ∀ (b : Badge) (s : State), s.ready .guard = true →
    (badgeOk b = false ∨ s.entryOfBadge b = none →
      AnsweredOnly (.removeOccupant .guard b) .guard (.removeOccupant b) s .badArgument [])
    ∧ (∀ x, badgeOk b = true → s.entryOfBadge b = some x → ∃ e,
      TakenWith (.removeOccupant .guard b) .guard (.removeOccupant b) s e .ok []
      ∧ e.pool.map (·.number) = (s.pool.filter fun y => !(y.zone == x.zone && y.number == x.number)).map (·.number)
      ∧ (e.zone x.zone).headcount = (s.zone x.zone).headcount ∧ (e.zone x.zone).reasons = (s.zone x.zone).reasons
      ∧ SameBut [.pool, .zones, .hours, .passage, .alarms, .loops, .ports] s e)

/-- SWEEP_ALL: its refusals, and the list it is answered with (R160). A listed zone is one IN_SERVICE and not excluded, and it can be swept
while both its doors are SECURED, its suppression state is NORMAL, ALERT or ISOLATED, and both its stations are ONLINE (R152). -/
def Obligations.SweepAllListsZones : Prop :=
  ∀ s : State, s.ready .guard = true →
    let listed : List Zone := allZones.filter fun z => (s.zone z).inService && !(nth s.control.excluded z)
    let online (d : DoorId) : Bool := (s.slot (loopOf (zoneOf d)) (slotOf d)).online == .online
    let fit (z : Zone) : Bool := (s.door (outerDoor z)).state == .secured && (s.door (innerDoor z)).state == .secured
      && ((s.suppRec z).state == .normal || (s.suppRec z).state == .alert || (s.suppRec z).state == .isolated)
      && online (outerDoor z) && online (innerDoor z)
    let zones (l : List Zone) : List Byte := byteList (fun (z : Zone) => byte1 z.val) l
    ((s.sweep.inProgress ≠ none ∨ s.sweep.allList ≠ none) →
      AnsweredOnly (.sweepAll .guard) .guard .sweepAll s .wrongState [])
    ∧ (s.sweep.inProgress = none → s.sweep.allList = none → (∃ z ∈ listed, fit z = false) →
      AnsweredOnly (.sweepAll .guard) .guard .sweepAll s .notSweepable (zones (listed.filter fun z => !fit z)))
    ∧ (s.sweep.inProgress = none → s.sweep.allList = none → (∀ z ∈ listed, fit z = true) → ∃ e,
      TakenWith (.sweepAll .guard) .guard .sweepAll s e .ok (zones listed)
      ∧ e.sweep.pointer = 0 ∧ (listed = [] → e.sweep.inProgress = none ∧ e.sweep.allList = none)
      ∧ (∀ z rest, listed = z :: rest →
          e.sweep.inProgress = some ⟨z, .sweepAll, none, none, none⟩ ∧ e.underSweep z = true
          ∧ (e.zone z).sweepMark = true ∧ (e.zone z).late = ReasonSet.empty
          ∧ e.sweep.allList = (if rest = [] then none else some rest))
      ∧ SameBut [.sweep, .doors, .zones, .loops, .ports] s e)

/-! ### The store -/

/-- A request that writes the store: turned away by its tests or STORE_BUSY, answered OK at once when the value is held, and else in the
slot while the write runs, the values in force unchanged (R202). It covers WRITE_SCHEDULE, WRITE_PASSAGE_CONFIG,
WRITE_SUPPRESSION_CONFIG, ISOLATE, DEISOLATE, LOCKDOWN, END_LOCKDOWN, EXCLUDE_SWEEP, INCLUDE_SWEEP, SET_SERVICE and
ENABLE_FORCE_CHORD. First, request by request: which arguments lie outside their ranges, which value is already held, and what each request's own
tests are (R21, R24, R45, R84, R85, R138, R140, R142, R146, R161, R198 to R201). That a day set with bit 7 and a code outside its list are
BAD_ARGUMENT is the model's choice (log entry 15). -/
def Obligations.StoreWriteBegins : Prop :=
  (∀ (r : Request) (s : State),
    let byteIn (lo hi : Nat) (x : Option Byte) : Prop := ∀ k, x = some k → lo ≤ k.toNat ∧ k.toNat ≤ hi
    let halfIn (lo hi : Nat) (x : Option Half) : Prop := ∀ k, x = some k → lo ≤ k.toNat ∧ k.toNat ≤ hi
    let tested (good allowed : Prop) : Prop := (¬ good → writeTest r s = some .badArgument)
      ∧ (good → ¬ allowed → writeTest r s = some .wrongState) ∧ (good → allowed → writeTest r s = none)
    let names (w : ZoneOrAll) (z : Zone) : Prop := w = .all ∨ ∃ b, w = .zone b ∧ zoneArg b = some z
    let outside : Prop := (∃ b : Byte, 15 < b.toNat ∧ (r = .lockdown (.zone b) ∨ r = .endLockdown (.zone b) ∨ r = .excludeSweep b
        ∨ r = .includeSweep b ∨ ∃ d, r = .setService b d))
      ∨ (∃ (b d : Byte), 1 < d.toNat ∧ r = .setService b d) ∨ ∃ v : Byte, 1 < v.toNat ∧ r = .enableForceChord v
    let held : Prop := (∃ w, r = .lockdown w ∧ ∀ z, names w z → nth s.control.lockdown z = true)
      ∨ (∃ w, r = .endLockdown w ∧ ∀ z, names w z → nth s.control.lockdown z = false)
      ∨ (∃ b z, zoneArg b = some z ∧ ((r = .excludeSweep b ∧ nth s.control.excluded z = true)
          ∨ (r = .includeSweep b ∧ nth s.control.excluded z = false) ∨ (r = .setService b 0 ∧ (s.zone z).inService = true)
          ∨ (r = .setService b 1 ∧ (s.zone z).inService = false)))
      ∨ (r = .enableForceChord 0 ∧ s.control.forceChord = true) ∨ (r = .enableForceChord 1 ∧ s.control.forceChord = false)
    (∀ st, writeArgument r = some st ↔ st = .badArgument ∧ outside)
    ∧ (¬ outside → (writeHeld r s = true ↔ held))
    ∧ (∀ ws, r = .writeSchedule ws → tested (ws.length ≤ 16 ∧ ∀ w ∈ ws, w.days ≠ 0 ∧ w.days.toNat < 128 ∧ w.start.toNat ≤ 1439
        ∧ 1 ≤ w.stop.toNat ∧ w.stop.toNat ≤ 1440 ∧ w.start.toNat < w.stop.toNat) True)
    ∧ (∀ f, r = .writePassageConfig (.part f) → tested
        ((f.releaseWindow ≠ none ∨ f.heldOpenLimit ≠ none ∨ f.pairingWindow ≠ none ∨ f.sweepInterval ≠ none ∨ f.loopRate ≠ none)
          ∧ byteIn 3 30 f.releaseWindow ∧ halfIn 10 300 f.heldOpenLimit ∧ byteIn 10 120 f.pairingWindow
          ∧ halfIn 15 600 f.sweepInterval ∧ byteIn 0 1 f.loopRate) True)
    ∧ (∀ b f, r = .writePassageConfig (.zone b f) →
        let structural : Prop := f.outerRail ≠ none ∨ f.innerRail ≠ none ∨ f.outerConfigured ≠ none ∨ f.innerConfigured ≠ none
          ∨ f.travelLimit ≠ none
        tested
          (b.toNat ≤ 15 ∧ (structural ∨ f.cap ≠ none ∨ f.pinAfterHours ≠ none ∨ f.loneInterval ≠ none)
            ∧ byteIn 0 1 f.outerRail ∧ byteIn 0 1 f.innerRail ∧ byteIn 0 1 f.outerConfigured ∧ byteIn 0 1 f.innerConfigured
            ∧ byteIn 1 24 f.cap ∧ byteIn 0 1 f.pinAfterHours ∧ halfIn 200 2000 f.travelLimit ∧ byteIn 5 60 f.loneInterval)
          (∀ z, zoneArg b = some z → (∀ n, f.cap = some n → (s.roster z).length ≤ n.toNat)
            ∧ (structural → (s.zone z).inService = false ∧ (s.door (outerDoor z)).release = none
                ∧ (s.door (innerDoor z)).release = none)))
    ∧ (∀ b f, r = .writeSuppressionConfig b f → tested
        (∃ z, zoneArg b = some z ∧ byteIn 1 3 f.coincidence ∧ byteIn 10 120 f.preDischarge ∧ byteIn 5 30 f.resume
          ∧ byteIn 2 30 f.confirmTime ∧ halfIn 60 3600 f.soakTime
          ∧ (f.resume.map (·.toNat)).getD (s.cfg z).resume ≤ (f.preDischarge.map (·.toNat)).getD (s.cfg z).preDischarge)
        (∀ z, zoneArg b = some z → (s.suppRec z).state = .normal ∨ (s.suppRec z).state = .isolated))
    ∧ (∀ b, r = .isolate b → tested (b.toNat ≤ 15)
        (∀ z, zoneArg b = some z → (s.suppRec z).state = .normal ∨ (s.suppRec z).state = .alert))
    ∧ (∀ b, r = .deisolate b → tested (b.toNat ≤ 15) (∀ z, zoneArg b = some z → (s.suppRec z).state = .isolated))
    ∧ (∀ b z, zoneArg b = some z → (r = .setService b 0 → tested True True)
        ∧ (r = .setService b 1 → tested True (s.roster z = [] ∧ s.certainty z = .empty
            ∧ ((s.suppRec z).state = .normal ∨ (s.suppRec z).state = .isolated)
            ∧ ∀ x ∈ s.alarms.queue, x.zone = some z → x.present = false)))
    ∧ ((∃ w, r = .lockdown w ∨ r = .endLockdown w) ∨ (∃ b, r = .excludeSweep b ∨ r = .includeSweep b ∨ r = .enableForceChord b) →
        tested True True))
  ∧ ∀ (p : PortId) (r : Request) (s : State), Request.writes r = true → permitted p r = true → s.ready p = true →
    (∀ st, writeArgument r = some st → AnsweredOnly (Request.command p r) p r s st [])
    ∧ (writeArgument r = none → writeHeld r s = true → AnsweredOnly (Request.command p r) p r s .ok [])
    ∧ (writeArgument r = none → writeHeld r s = false →
      (∀ st, writeTest r s = some st → AnsweredOnly (Request.command p r) p r s st [])
      ∧ (writeTest r s = none →
        (s.store.write ≠ none → AnsweredOnly (Request.command p r) p r s .storeBusy [])
        ∧ (s.store.write = none → ∃ t, exec (Request.command p r) s = .next t ∧ t.store.write = some ⟨p, s.now⟩
          ∧ (t.port p).slot = some r ∧ (t.port p).reply = none ∧ t.partCfg = s.partCfg ∧ t.control = s.control
          ∧ (∀ z, t.cfg z = s.cfg z) ∧ SameBut [.store, .ports, .passage] s t)))

/-- STORE_COMMIT of a held request: its tests (those StoreWriteBegins spells) are made again; passed, the record's new values are in force in a good copy whose count is one
ahead (R198), every other flag and record as it was, copies and counts too, and the request is answered OK; failed, it is answered with the
failing status and nothing else changes (R202, with R24, R45, R85, R138, R140, R142, R146, R161, R200). -/
def Obligations.StoreCommitTakesEffect : Prop :=
  ∀ (p : PortId) (r : Request) (s : State) (began : Nat), s.store.write = some ⟨p, began⟩ → (s.port p).slot = some r →
    let s1 : State := { s with store.write := none }
    let k := s.control
    let ofPart : Prop := (∃ ws, r = .writeSchedule ws) ∨ ∃ f, r = .writePassageConfig (.part f)
    let ofZone (b : Byte) : Prop := (∃ f, r = .writeSuppressionConfig b f) ∨ ∃ f, r = .writePassageConfig (.zone b f)
    let ofControl : Prop := r = .lockdown .all ∨ r = .endLockdown .all ∨ r = .enableForceChord 0 ∨ r = .enableForceChord 1
      ∨ ∃ b z, zoneArg b = some z ∧ (r = .isolate b ∨ r = .deisolate b ∨ r = .lockdown (.zone b) ∨ r = .endLockdown (.zone b)
        ∨ r = .excludeSweep b ∨ r = .includeSweep b ∨ ∃ d b', r = .setService b d ∧ directionArg d = some b')
    (∀ st, writeTest r s1 = some st → exec .storeCommit s = .next (placeReply p r st [] s1))
    ∧ (writeTest r s1 = none → ∃ e payload, exec .storeCommit s = .next (placeReply p r .ok payload (finishRequest s e))
      ∧ e.store.write = none ∧ e.store.defaultedMark = s.store.defaultedMark
      ∧ (ofPart → Stored.Committed PartRec.bytes s.store.part e.store.part ∧ (∀ y, e.storedZone y = s.storedZone y)
          ∧ e.store.control = s.store.control)
      ∧ (∀ b z, zoneArg b = some z → ofZone b → Stored.Committed ZoneCfg.bytes (s.storedZone z) (e.storedZone z)
          ∧ (∀ y, y ≠ z → e.storedZone y = s.storedZone y) ∧ e.store.part = s.store.part ∧ e.store.control = s.store.control)
      ∧ (ofControl → Stored.Committed ControlRec.bytes s.store.control e.store.control ∧ e.store.part = s.store.part
          ∧ ∀ y, e.storedZone y = s.storedZone y)
      ∧ (∀ b z, zoneArg b = some z →
          let x := s.suppRec z
          (r = .excludeSweep b → e.control = { k with excluded := put k.excluded z true } ∧ SameBut [.store] s e)
          ∧ (r = .includeSweep b → e.control = { k with excluded := put k.excluded z false } ∧ SameBut [.store] s e)
          ∧ (r = .lockdown (.zone b) → e.control = { k with lockdown := put k.lockdown z true } ∧ e.egressOnly z = true)
          ∧ (r = .endLockdown (.zone b) → e.control = { k with lockdown := put k.lockdown z false })
          ∧ (r = .isolate b → e.control = { k with isolation := put k.isolation z true }
              ∧ e.suppRec z = { x with state := .isolated } ∧ (∀ y, y ≠ z → e.suppRec y = s.suppRec y)
              ∧ SameBut [.store, .supp] s e)
          ∧ (r = .deisolate b → e.control = { k with isolation := put k.isolation z false }
              ∧ payload = byte1 ((finishRequest s e).suppRec z).state.code
              ∧ (x.detectors.length < (s.cfg z).coincidence →
                  e.suppRec z = { x with pullSeen := false, state := (if x.detectors = [] then .normal else .alert) })
              ∧ ((s.cfg z).coincidence ≤ x.detectors.length →
                  e.suppRec z = { x with pullSeen := false, confirmed := true, countdown := ((s.cfg z).preDischarge * 1000),
                                         state := (if x.holds.any then .held else .preDischarge) })
              ∧ (∀ y, y ≠ z → e.suppRec y = s.suppRec y) ∧ SameBut [.store, .supp] s e)
          ∧ (∀ f, r = .writeSuppressionConfig b f →
              e.cfg z = { s.cfg z with
                coincidence := ((f.coincidence.map (·.toNat)).getD (s.cfg z).coincidence),
                preDischarge := ((f.preDischarge.map (·.toNat)).getD (s.cfg z).preDischarge),
                resume := ((f.resume.map (·.toNat)).getD (s.cfg z).resume),
                confirmTime := ((f.confirmTime.map (·.toNat)).getD (s.cfg z).confirmTime),
                soakTime := ((f.soakTime.map (·.toNat)).getD (s.cfg z).soakTime) }
              ∧ (∀ y, y ≠ z → e.cfg y = s.cfg y)
              ∧ e.control = k ∧ SameBut [.store] s e)
          ∧ (∀ f, r = .writePassageConfig (.zone b f) →
              let rail (x : Option Byte) (now : Rail) : Rail := (x.map fun v => if v = 1 then Rail.b else Rail.a).getD now
              let flag (x : Option Byte) (now : Bool) : Bool := (x.map fun v => v == 1).getD now
              e.cfg z = { s.cfg z with
                outerRail := (rail f.outerRail (s.cfg z).outerRail), innerRail := (rail f.innerRail (s.cfg z).innerRail),
                outerConfigured := (flag f.outerConfigured (s.cfg z).outerConfigured),
                innerConfigured := (flag f.innerConfigured (s.cfg z).innerConfigured),
                cap := ((f.cap.map (·.toNat)).getD (s.cfg z).cap),
                pinAfterHours := (flag f.pinAfterHours (s.cfg z).pinAfterHours),
                travelLimit := ((f.travelLimit.map (·.toNat)).getD (s.cfg z).travelLimit),
                loneInterval := ((f.loneInterval.map (·.toNat)).getD (s.cfg z).loneInterval) }
              ∧ (∀ y, y ≠ z → e.cfg y = s.cfg y)
              ∧ e.control = k)
          ∧ (∀ d b', r = .setService b d → directionArg d = some b' → e.control = { k with service := put k.service z b' }
              ∧ (e.zone z).inService = b' ∧ ∀ y, y ≠ z → (e.zone y).inService = (s.zone y).inService))
      ∧ (r = .lockdown .all → e.control = { k with lockdown := Vector.replicate 16 true })
      ∧ (r = .endLockdown .all → e.control = { k with lockdown := Vector.replicate 16 false })
      ∧ (∀ ws, r = .writeSchedule ws →
          let windows : List Window := ws.map fun w => ⟨w.days, w.start.toNat, w.stop.toNat⟩
          e.partCfg = { s.partCfg with schedule := windows } ∧ e.hours.schedule = windows
          ∧ e.control = k ∧ payload = byte1 (finishRequest s e).hours.state.code)
      ∧ (∀ f, r = .writePassageConfig (.part f) →
          e.partCfg = { s.partCfg with
            releaseWindow := ((f.releaseWindow.map (·.toNat)).getD s.partCfg.releaseWindow),
            heldOpenLimit := ((f.heldOpenLimit.map (·.toNat)).getD s.partCfg.heldOpenLimit),
            pairingWindow := ((f.pairingWindow.map (·.toNat)).getD s.partCfg.pairingWindow),
            sweepInterval := ((f.sweepInterval.map (·.toNat)).getD s.partCfg.sweepInterval),
            fastLoop := ((f.loopRate.map fun v => v == 1).getD s.partCfg.fastLoop) }
          ∧ e.control = k ∧ SameBut [.store] s e)
      ∧ (r = .enableForceChord 0 → e.control = { k with forceChord := true } ∧ SameBut [.store] s e)
      ∧ (r = .enableForceChord 1 → e.control = { k with forceChord := false } ∧ e.supp.window.closesAt = none
          ∧ e.supp.zones = s.supp.zones ∧ SameBut [.store, .supp, .ports] s e))

/-- SET_SERVICE: the tests of OUT and what the roster unit does at its commit (R24). -/
def Obligations.ServiceChangesAtCommit : Prop :=
  ∀ (z : Zone) (s : State),
    (serviceTest z true s = none)
    ∧ (serviceTest z false s = none ↔ s.roster z = [] ∧ s.certainty z = .empty
        ∧ ((s.suppRec z).state = .normal ∨ (s.suppRec z).state = .isolated)
        ∧ (s.alarms.queue.any fun r => r.present && r.zone == some z) = false)
    ∧ (∀ b, let t := serviceClaim z b s
        (t.zone z).inService = b ∧ (t.zone z).headcount = (s.zone z).headcount
        ∧ (b = false → (t.zone z).pairing = none ∧ (t.zone z).deferrals = 0)
        ∧ SameBut [.zones, .passage, .ports] s t)

/-! ### The field loops -/

/-- LOOP_EXCHANGE sends the first queued command for an ONLINE station, else the next of the poll round (R168): the frame of R211, its address
marked by the ninth bit, is what the transmitter sends, and the command it carries is marked in flight, so that a later one of its class
counts as not yet sent (R169, log entry 19). -/
def Obligations.ExchangeSendsCommandOrPoll : Prop :=
  (∀ (l : LoopId) (s : State), (s.loop l).state = .running → (s.loop l).exchange = none →
    let queued := (s.loop l).queue.find? fun c => (nth (s.loop l).slots c.slot).online == .online
    let turn := (pollOrder (s.loop l).lastPolled).find? fun a => (nth (s.loop l).slots a).online != .absent
    let begins (x : Exchange) (last : Nat) : Loop :=
      { s.loop l with
        exchange := (some x), sent := (Exchange.frame x), lastPolled := last,
        queue := ((s.loop l).queue.map fun c => if c.slot = x.slot ∧ x.body = some c.body then { c with inFlight := true } else c) }
    ∃ e, EndsWith (.loopExchange l) s e
      ∧ (∀ c, queued = some c → e.loop l = begins ⟨c.slot, some c.body⟩ (s.loop l).lastPolled)
      ∧ (∀ a, queued = none → turn = some a →
          ((s.slot l a).online = .online → e.loop l = begins ⟨a, none⟩ (a.val + 1))
          ∧ ((s.slot l a).online = .offline →
              e.loop l = begins ⟨a, ((s.loop l).queue.find? fun c => c.slot == a).map (·.body)⟩ (a.val + 1)))
      ∧ (queued = none → turn = none → e = s)
      ∧ (∀ k, k ≠ l → e.loop k = s.loop k) ∧ SameBut [.loops] s e)
  ∧ ∀ x : Exchange, ∃ body, body = byte1 (x.slot.val + 1) ++ cmdBytes x.body
      ∧ (Exchange.frame x).map (·.byte) = body ++ crc16Bytes body
      ∧ ((Exchange.frame x).map (·.addressMark)).head? = some true ∧ true ∉ ((Exchange.frame x).drop 1).map (·.addressMark)

/-- A miss counts; at the third an ONLINE slot goes OFFLINE, STATION_OFFLINE is raised, its commands are discarded and its door is UNVERIFIED
(R166, R41), STATION_LOST joins the zone's reasons when that door was WITHDRAWING, UNLOCKED, OPEN or THROWING and none does from SECURED, FAULT,
QUEUED or UNVERIFIED (R9, R41), and a sweep that awaits its reply ends NO_REPLY (R154). The command sent, if any, stays in its place in the queue, no longer in
flight (R168), and the other slots, the other loop and the other doors are as they were. That a sweep goes on which has this station's reply
already and awaits the other's is the model's choice (log entry 54). An invalid STATION_REPLY is a miss as the closed window is. -/
def Obligations.MissesTakeAStationOffline : Prop :=
  ∀ (l : LoopId) (x : Exchange) (s : State), (s.loop l).exchange = some x →
    let d := doorAt l x.slot
    let awaited (r : SweepRec) : Prop := r.zone = zoneOf d ∧ (if isOuter d then r.outer else r.inner) = none
    let missed (v : Slot) (queue : List LoopCmd) : Loop :=
      { s.loop l with
        exchange := none, sent := [], slots := (put (s.loop l).slots x.slot v),
        queue := (queue.map fun c => { c with inFlight := false }) }
    let otherLoop (e : State) : Prop := ∀ k, k ≠ l → e.loop k = s.loop k
    (∀ bytes, validReply x bytes = none → exec (.stationReply l bytes) s = exec (.replyWindowMiss l) s)
    ∧ ((s.slot l x.slot).missed ≠ 2 → ∃ e, EndsWith (.replyWindowMiss l) s e
        ∧ e.loop l = missed { s.slot l x.slot with missed := (min ((s.slot l x.slot).missed + 1) 3) } (s.loop l).queue
        ∧ otherLoop e ∧ SameBut [.loops] s e)
    ∧ ((s.slot l x.slot).missed = 2 → (s.slot l x.slot).online = .offline → ∃ e, EndsWith (.replyWindowMiss l) s e
        ∧ e.loop l = missed { s.slot l x.slot with missed := 3 } (s.loop l).queue ∧ otherLoop e
        ∧ (s.alarms.queue.length < 32 → e.alarmPresent .stationOffline (some (zoneOf d)) (.station l x.slot) = true)
        ∧ SameBut [.loops, .alarms] s e)
    ∧ ((s.slot l x.slot).missed = 2 → (s.slot l x.slot).online = .online →
        ∃ e v, EndsWith (.replyWindowMiss l) s e
        ∧ v.loop l = missed { s.slot l x.slot with missed := 3, online := .offline, overflowQuery := false }
            ((s.loop l).queue.filter fun c => c.slot != x.slot)
        ∧ otherLoop v ∧ OtherDoors d s v ∧ SameBut [.loops, .doors, .zones] s v
        ∧ ((s.door d).state.moving = true →
            (v.zone (zoneOf d)).reasons = { (s.zone (zoneOf d)).reasons with stationLost := true })
        ∧ ((s.door d).state.moving = false → v.zones = s.zones)
        ∧ (∀ z, z ≠ zoneOf d → v.zone z = s.zone z)
        ∧ e = noticeSlot l x.slot .offline (raiseAlarm .stationOffline (some (zoneOf d)) (.station l x.slot) (sweepFail d v))
        ∧ (e.slot l x.slot).online = .offline ∧ (e.slot l x.slot).missed = 3
        ∧ (∀ c ∈ (e.loop l).queue, c.slot ≠ x.slot) ∧ (e.door d).state = .unverified
        ∧ (e.door d).contact = .unknown ∧ (e.door d).bolt = .unknown
        ∧ ((s.door d).release = none ∨ (s.door d).state.moving = true ∨ (s.door d).state = .queued → (e.door d).release = none)
        ∧ ((∀ r, s.sweep.inProgress = some r → ¬ awaited r) → e.sweep = s.sweep ∧ e.loops = v.loops ∧ e.doors = v.doors
            ∧ e.zones = v.zones
            ∧ (s.alarms.queue.length < 32 → e.alarmPresent .stationOffline (some (zoneOf d)) (.station l x.slot) = true)
            ∧ SameBut [.loops, .doors, .zones, .alarms] s e)
        ∧ (∀ r, s.sweep.inProgress = some r → awaited r → (e.zone r.zone).lastResult = .noReply
            ∧ (s.sweep.allList = none → e.sweep.inProgress = none ∧ e.underSweep r.zone = false
                ∧ (e.zone r.zone).sweepMark = false
                ∧ ((s.zone r.zone).inService = true → (e.zone r.zone).deferrals = min ((s.zone r.zone).deferrals + 1) 3)))
        ∧ SameBut [.zones, .pool, .doors, .passage, .hours, .alarms, .sweep, .loops, .ports] s e)

/-- A valid STATION_REPLY: the station is heard, its missed count returns to 0 and the command sent leaves the queue, while one that replaced
it meanwhile stays (R166, R168, R169, log entry 19); an OFFLINE station goes ONLINE with a STATUS_QUERY queued and STATION_OFFLINE
ended (R167). Then its reports are taken, each ended as an event of its own before the next (R172; the order of hand-ons within it is the
model's choice, log entry 5), then the overflow flag, which sets its mark and queues a STATUS_QUERY, then the STATUS record (R171, R173). That a STATUS_QUERY
this reply answers has left the queue before the return or the overflow flag queues one is the model's choice (log entry 55). -/
def Obligations.ValidReplyIsTaken : Prop :=
  ∀ (l : LoopId) (x : Exchange) (bytes : List Byte) (f : StationFrame) (s : State), (s.loop l).exchange = some x →
    validReply x bytes = some f →
    let a := x.slot
    let kept := (s.loop l).queue.filter fun c => !c.inFlight
    let back : Prop := (s.slot l a).online = .offline
    ∃ h, (h.loop l).exchange = none ∧ (h.loop l).sent = []
      ∧ h.slot l a = { s.slot l a with missed := 0, online := (if back then .online else (s.slot l a).online) }
      ∧ (∀ y, y ≠ a → h.slot l y = s.slot l y)
      ∧ (¬ back → (h.loop l).queue = kept ∧ SameBut [.loops] s h)
      ∧ (back → (h.loop l).queue = (if (s.loop l).state = .running then enqueueCmd kept a .statusQuery else kept)
          ∧ h.alarmPresent .stationOffline (some (zoneAt l a)) (.station l a) = false
          ∧ DueNotice.slot l a .online ∈ h.work.due ∧ SameBut [.loops, .alarms] s h)
      ∧ ∃ u, (f.reports = [] → u = h)
          ∧ (∀ y, f.reports = [some y] → u = endEvent (takeReport l a y h))
          ∧ (∀ y rest, f.reports = some y :: rest → u = takeReports l a rest (endEvent (takeReport l a y h)))
          ∧ (∀ rest, f.reports = none :: rest → u = takeReports l a rest h)
          ∧ SameBut [.zones, .pool, .doors, .passage, .hours, .alarms, .supp, .sweep, .loops, .lines, .ports] s u
          ∧ { u.lines with outputs := s.lines.outputs } = s.lines
          ∧ ∃ v, (f.overflow = false → v = u)
              ∧ (f.overflow = true → (v.slot l a).overflowQuery = true ∧ SameBut [.loops] u v
                  ∧ ((u.loop l).state = .running → (u.slot l a).online ≠ .absent →
                      (v.loop l).queue = enqueueCmd (u.loop l).queue a .statusQuery))
              ∧ (f.status = none → EndsWith (.stationReply l bytes) s v)
              ∧ (∀ r, f.status = some r → EndsWith (.stationReply l bytes) s (takeStatus l a r v))

/-- A break cuts a RUNNING loop: its queue and exchange are gone, its configured slots OFFLINE, the doors of those that were ONLINE UNVERIFIED,
LOOP_CUT raised, STATION_LOST added for a zone with such a door in the moving set and no reason for any other (R9), and a sweep that awaits one
of its stations ends NO_REPLY; its return to marking restores it (R41, R154, R164). That an exchange in progress ends uncounted is the
model's choice (log entry 62). -/
def Obligations.BreakCutsAndReturnRestores : Prop :=
  ∀ (l : LoopId) (s : State),
    let awaited (r : SweepRec) : Prop := loopOf r.zone = l ∧ (r.outer = none ∨ r.inner = none)
    let lost (z : Zone) : Prop := loopOf z = l ∧ ∃ d, (d = outerDoor z ∨ d = innerDoor z)
      ∧ (s.slot l (slotOf d)).online = .online ∧ (s.door d).state.moving = true
    let reasons (e : State) : Prop := ∀ z, (lost z → (e.zone z).reasons = { (s.zone z).reasons with stationLost := true })
      ∧ (¬ lost z → (e.zone z).reasons = (s.zone z).reasons)
    ((s.loop l).state = .running → ∃ e, EndsWith (.loopBreak l) s e
      ∧ (e.loop l).state = .cut ∧ (e.loop l).queue = [] ∧ (e.loop l).exchange = none ∧ (e.loop l).sent = []
      ∧ (∀ a, (e.slot l a).configured = (s.slot l a).configured
          ∧ ((s.slot l a).configured = true → (e.slot l a).online = .offline ∧ (e.slot l a).missed = 0)
          ∧ ((s.slot l a).online = .online → (e.door (doorAt l a)).state = .unverified
              ∧ (e.door (doorAt l a)).contact = .unknown ∧ (e.door (doorAt l a)).bolt = .unknown
              ∧ ((s.door (doorAt l a)).release = none ∨ (s.door (doorAt l a)).state.moving = true
                ∨ (s.door (doorAt l a)).state = .queued → (e.door (doorAt l a)).release = none)))
      ∧ ((∀ r, s.sweep.inProgress = some r → ¬ awaited r) → e.sweep = s.sweep ∧ reasons e
          ∧ (s.alarms.queue.length < 32 → e.alarmPresent .loopCut none (.loop l) = true)
          ∧ SameBut [.loops, .doors, .zones, .alarms] s e)
      ∧ (∀ r, s.sweep.inProgress = some r → awaited r → s.sweep.allList = none → e.sweep.inProgress = none
          ∧ reasons e ∧ e.underSweep r.zone = false ∧ (e.zone r.zone).lastResult = .noReply ∧ (e.zone r.zone).sweepMark = false)
      ∧ SameBut [.zones, .pool, .doors, .passage, .hours, .alarms, .sweep, .loops, .ports] s e)
    ∧ ((s.loop l).state = .cut → ∃ e, EndsWith (.loopRestored l) s e ∧ e.loop l = { s.loop l with state := .running }
      ∧ e.alarmPresent .loopCut none (.loop l) = false ∧ SameBut [.loops, .alarms] s e)

/-- What a door does with a CONTACT or BOLT report, state by state (R33 to R40); every travel a BOLT report carries is stored and judged as
R33 judges one, in any state (R27, R51, R109; read so, log entry 42). No report changes another door's record. -/
def Obligations.ReportsMoveTheDoor : Prop :=
  ∀ (d : DoorId) (s : State),
    let x := s.door d
    let z := zoneOf d
    let limit := (s.cfg z).travelLimit
    let clash : Prop := s.inEvacuation z = false ∧ (s.door (otherDoor d)).state.moving = true
    let judged (travel : Nat) (t : State) : Prop := (t.door d).travel = travel ∧ (t.door d).degraded = decide (limit < travel)
      ∧ (limit < travel → s.alarms.queue.length < 32 → t.alarmPresent .lockDegraded (some z) (.door d) = true)
      ∧ (travel ≤ limit → t.alarmPresent .lockDegraded (some z) (.door d) = false)
    let heldOpen : Option Nat := some (s.now + s.partCfg.heldOpenLimit * 1000)
    ((x.state = .unlocked ∨ x.state = .withdrawing ∨ x.state = .throwing) → let t := contactOpen d s
      (t.door d).state = .opened ∧ (t.door d).contact = .opened ∧ (t.door d).travel = x.travel
      ∧ (t.door d).bolt = (if x.state = .withdrawing then .withdrawn else x.bolt)
      ∧ (t.door d).release = x.release.map (fun r => { r with window := none, opened := true })
      ∧ (t.door d).boltTimer = none
      ∧ ((∀ r, x.release = some r → r.kind ≠ .hold) → (t.door d).heldOpen = heldOpen)
      ∧ (∀ r, x.release = some r → r.kind = .hold → (t.door d).heldOpen = none)
      ∧ OtherDoors d s t ∧ SameBut [.doors] s t)
    ∧ ((x.state = .secured ∨ x.state = .queued) → let t := contactOpen d s
      (t.door d).contact = .opened ∧ (t.door d).forced = true ∧ (t.door d).release = none
      ∧ (∀ r, x.release = some r → HandOn.released d r .cancelled false ∈ t.work.handOns)
      ∧ (t.zone z).reasons.countMismatch = true
      ∧ (¬ clash → (t.door d).state = .opened ∧ (t.door d).heldOpen = heldOpen
          ∧ (s.alarms.queue.length < 32 → t.alarmPresent .doorForced (some z) (.door d) = true)
          ∧ SameBut [.doors, .zones, .alarms] s t)
      ∧ (clash → (t.door d).state = .fault
          ∧ (s.alarms.queue.length < 31 → t.alarmPresent .doorForced (some z) (.door d) = true
            ∧ t.alarmPresent .doorFault (some z) (.door d) = true))
      ∧ OtherDoors d s t ∧ SameBut [.doors, .zones, .alarms, .loops] s t)
    ∧ (x.state = .unverified → x.release = none → let t := contactOpen d s
      (¬ clash → t.door d = { x with state := .opened, contact := .opened, forced := false, boltTimer := none, heldOpen := heldOpen }
        ∧ SameBut [.doors] s t)
      ∧ (clash → t.door d = { x with state := .fault, contact := .opened, forced := false, relock := false, boltTimer := none,
                                     heldOpen := none }
          ∧ (s.alarms.queue.length < 32 → t.alarmPresent .doorFault (some z) (.door d) = true)
          ∧ t.loops = (s.giveDoorCmd d .throwBolt).loops ∧ SameBut [.doors, .alarms, .loops] s t)
      ∧ OtherDoors d s t)
    ∧ (x.state = .opened ∨ (x.state = .fault ∧ x.forced = true) → let t := contactOpen d s
      t.door d = { x with contact := .opened } ∧ OtherDoors d s t ∧ SameBut [.doors] s t)
    ∧ (x.state = .fault → x.forced = false → let t := contactOpen d s
      t.door d = { x with contact := .opened, forced := true } ∧ (t.zone z).reasons.countMismatch = true
      ∧ (s.alarms.queue.length < 32 → t.alarmPresent .doorForced (some z) (.door d) = true)
      ∧ OtherDoors d s t ∧ SameBut [.doors, .zones, .alarms] s t)
    ∧ (let t := contactClosed d s
      let bound : Prop := ∀ r, x.release = some r → r.kind ≠ .hold ∨ x.relock = true
      (x.state = .opened → bound →
        t.door d = { x with contact := .closed, state := .throwing, boltTimer := (some (s.now + 2 * limit)), heldOpen := none,
                            release := (x.release.map fun r => { r with window := none }) }
        ∧ t.loops = (s.giveDoorCmd d .throwBolt).loops)
      ∧ (x.state = .opened → ¬ bound → t.door d = { x with contact := .closed, state := .unlocked, heldOpen := none }
          ∧ t.loops = s.loops)
      ∧ (x.state = .fault → t.door d = { x with contact := .closed } ∧ t.loops = (s.giveDoorCmd d .throwBolt).loops)
      ∧ (x.state ≠ .opened → x.state ≠ .fault → t.door d = { x with contact := .closed } ∧ t.loops = s.loops)
      ∧ t.alarmPresent .doorHeld (some z) (.door d) = false ∧ OtherDoors d s t ∧ SameBut [.doors, .loops, .alarms] s t)
    ∧ (∀ r travel, x.state = .withdrawing → x.release = some r → let t := boltReport d true travel s
      (t.door d).bolt = .withdrawn ∧ judged travel t
      ∧ (r.cut = false → (t.door d).state = .unlocked ∧ (t.door d).boltTimer = none
          ∧ (t.door d).release = some { r with
              window := (if r.kind = .hold then none else some (s.now + s.partCfg.releaseWindow * 1000)) }
          ∧ SameBut [.doors, .alarms] s t)
      ∧ (r.cut = true → (t.door d).state = .throwing ∧ (t.door d).boltTimer = some (s.now + 2 * limit)
          ∧ (t.door d).release = some { r with window := none } ∧ SameBut [.doors, .alarms, .loops] s t)
      ∧ OtherDoors d s t)
    ∧ (∀ travel, (x.state = .secured ∨ x.state = .queued) → let t := boltReport d true travel s
      (t.door d).state = .fault ∧ (t.door d).bolt = .withdrawn ∧ (t.door d).travel = travel
      ∧ (t.door d).degraded = decide (limit < travel) ∧ (t.door d).release = none ∧ (t.door d).relock = false
      ∧ (∀ r, x.release = some r → HandOn.released d r .cancelled false ∈ t.work.handOns)
      ∧ (travel ≤ limit → t.alarmPresent .lockDegraded (some z) (.door d) = false
          ∧ (s.alarms.queue.length < 32 → t.alarmPresent .doorFault (some z) (.door d) = true))
      ∧ (limit < travel → s.alarms.queue.length < 31 → t.alarmPresent .lockDegraded (some z) (.door d) = true
          ∧ t.alarmPresent .doorFault (some z) (.door d) = true)
      ∧ OtherDoors d s t ∧ SameBut [.doors, .alarms, .loops] s t)
    ∧ (∀ travel, (x.state = .throwing ∨ x.state = .fault) → x.contact = .closed → ∃ u,
      boltReport d false travel s = enterSecured d u ∧ judged travel u
      ∧ u.door d = { x with bolt := .thrown, travel := travel, degraded := (u.door d).degraded }
      ∧ OtherDoors d s u ∧ SameBut [.doors, .alarms] s u)
    ∧ (∀ withdrawn travel,
      (withdrawn = true → x.state ≠ .withdrawing ∧ x.state ≠ .secured ∧ x.state ≠ .queued) →
      (withdrawn = false → (x.state ≠ .throwing ∧ x.state ≠ .fault) ∨ x.contact ≠ .closed) →
      let t := boltReport d withdrawn travel s
      t.door d = { x with bolt := (if withdrawn then .withdrawn else .thrown), travel := travel, degraded := decide (limit < travel) }
      ∧ judged travel t ∧ OtherDoors d s t ∧ SameBut [.doors, .alarms] s t)
    ∧ (let t := enterSecured d s
      (t.door d).state = .secured ∧ (t.door d).release = none ∧ (t.door d).securedAt = some s.uptime
      ∧ (t.door d).settleEnds = some (s.now + 1500) ∧ (t.door d).relock = false ∧ (t.door d).forced = false
      ∧ t.alarmPresent .doorForced (some z) (.door d) = false
      ∧ t.alarmPresent .doorFault (some z) (.door d) = false
      ∧ (∀ r, x.release = some r →
          HandOn.released d r (if r.lapsed then .lapsed else .complete) false ∈ t.work.handOns)
      ∧ OtherDoors d s t ∧ SameBut [.doors, .alarms] s t)

/-- What a REX, BEAM or TAMPER report of a station does (R75, R78, R165, R174), and that CONTACT and BOLT reports go to the door (R172). A crossing
under an inner release of origin MASTER is settled at once: inward an anonymous entry at INNER, or TAILGATE_OVERFLOW, with no TAILGATE; outward
the oldest anonymous INNER entry to VESTIBULE, or UNBADGED_EXIT (R78). A report not listed for its station changes nothing. -/
def Obligations.ReportsReachTheirUnits : Prop :=
  ∀ (l : LoopId) (a : SlotId) (s : State),
    let d := doorAt l a
    let z := zoneOf d
    (∀ opened, takeReport l a (.contact opened) s = if opened then contactOpen d s else contactClosed d s)
    ∧ (∀ withdrawn travel, takeReport l a (.bolt withdrawn travel) s = boltReport d withdrawn travel s)
    ∧ (∀ side, let t := takeReport l a (.rex side) s
      let listed : Prop := side = (if isOuter d then .vestibule else .vault)
      (¬ listed → t = s)
      ∧ (listed → (s.door d).state = .secured →
          (t.door d).release.map (fun r => (r.kind, r.origin, r.group)) = some (.egress, .rex, none)
          ∧ ((t.door d).state = .queued ∨ (t.door d).state = .withdrawing) ∧ SameBut [.doors, .passage, .loops] s t)
      ∧ (∀ r, listed → (s.door d).state = .unlocked → (s.door d).release = some r → r.kind = .egress → r.opened = false →
          t.door d = { s.door d with release := (some { r with window := (some (s.now + s.partCfg.releaseWindow * 1000)) }) }
          ∧ SameBut [.doors] s t)
      ∧ (listed → (s.door d).state ≠ .secured → (s.door d).unopened .egress = false → t = s))
    ∧ (∀ inward, let t := takeReport l a (.beam inward) s
      (isOuter d = true → t = s)
      ∧ (isOuter d = false →
        (∀ y, nth t.sweep.beamsIn y = (if y = z ∧ inward = true then (nth s.sweep.beamsIn y + 1) % 65536 else nth s.sweep.beamsIn y)
          ∧ nth t.sweep.beamsOut y
            = (if y = z ∧ inward = false then (nth s.sweep.beamsOut y + 1) % 65536 else nth s.sweep.beamsOut y))
        ∧ ((s.zone z).headcount ≤ 255 →
            (t.zone z).headcount = if inward then min ((s.zone z).headcount + 1) 255 else (s.zone z).headcount - 1)
        ∧ (∀ r, (s.door d).state.moving = true → (s.door d).release = some r → r.origin ≠ .master →
            (t.zonePassage z).tallyIn
              = (if inward then min ((s.zonePassage z).tallyIn + 1) 255 else (s.zonePassage z).tallyIn)
            ∧ (t.zonePassage z).tallyOut
              = if inward then (s.zonePassage z).tallyOut else min ((s.zonePassage z).tallyOut + 1) 255)
        ∧ (∀ r, (s.door d).state.moving = true → (s.door d).release = some r → r.origin = .master →
            let h := (s.zone z).headcount
            let anonymous (e : Entry) : Bool := e.zone == z && e.badge == none && e.location == .inner
            let made (n : EntryNo) : Entry :=
              { number := n, zone := z, badge := none, role := .unidentified, location := .inner, admittedAt := s.uptime,
                escort := none, deadline := none, checkIns := 0, duress := false, unescorted := false, lone := false, group := none }
            let room : Prop := (lowestFree s.pool).isSome = true ∧ (s.roster z).length < (s.cfg z).cap
            let found : Prop := s.pool.any anonymous = true
            (inward = true → room → ∀ n, (lowestFree s.pool) = some n → PoolIs t (s.pool ++ [made n]))
            ∧ (inward = true → ¬ room → PoolIs t s.pool ∧ (t.zone z).reasons.tailgateOverflow = true)
            ∧ (inward = false → found →
                PoolIs t (changeFirst anonymous (fun e => { e with location := .vestibule }) 1 s.pool))
            ∧ (inward = false → ¬ found → PoolIs t s.pool ∧ (t.zone z).reasons.unbadgedExit = true)
            ∧ (0 < h → h < 255 → (inward = true → room) → (inward = false → found) → (t.zone z).reasons = (s.zone z).reasons)
            ∧ (t.alarmPresent .tailgate (some z) (.door d) = true → s.alarmPresent .tailgate (some z) (.door d) = true)
            ∧ (t.zonePassage z).tallyIn = (s.zonePassage z).tallyIn ∧ (t.zonePassage z).tallyOut = (s.zonePassage z).tallyOut
            ∧ SameBut [.zones, .pool, .hours, .passage, .alarms, .sweep, .loops, .ports] s t)
        ∧ (((s.door d).state.moving = false ∨ (s.door d).release = none) → (t.zone z).reasons.countMismatch = true)))
    ∧ ∀ on, let t := takeReport l a (.tamper on) s
      let x := s.slot l a
      t.slot l a = { x with tamper := (if on then .on else .off) }
      ∧ (x.tamper = (if on then .on else .off) → t = s)
      ∧ (on = true → x.tamper ≠ .on → s.alarms.queue.length < 32 → t.alarmPresent .tamper (some z) (.station l a) = true)
      ∧ (on = false → x.tamper = .on → t.alarmPresent .tamper (some z) (.station l a) = false)
      ∧ SameBut [.loops, .alarms] s t

/-- A badge at a corridor reader (R54, R55, R57, R58, R61, R69): DURESS raises its alarm whatever is decided; no badge number is denied
BAD_BADGE, and policy denies with the pattern that fits its cause (the notices' outcome DENIED and source NONE are the model's choice, log
entry 53); a badge that meets an outstanding query of the door waits (the notice's WAIT, DOOR_BUSY and NONE are the model's choice, log
entry 13); a full table or a SILENT port decides from the cache, and else a query is raised with a fresh id, and the reader is sent WAIT.
Where its notice finds no place, the decision is from the cache, with the next query's id as it was (the model's choice, log entry 48). That
VERDICT_REQUEST has the door as its subject (log entry 11, unsafe) and carries 0 in the digit places beyond the last digit (log entry 44,
unsafe) is the model's choice too. -/
def Obligations.CorridorBadgesAreDecided : Prop :=
  ∀ (l : LoopId) (a : SlotId) (b : Badge) (intent : Bool) (k : Terminator) (digits : List Nat) (s : State),
    let d := doorAt l a
    let z := zoneOf d
    let t := takeReport l a (.badge .corridor b intent k digits) s
    let p : Presentation := ⟨d, b, k, digits, none, false⟩
    let query (i : Byte) : Query := ⟨i, d, b, k, digits, s.now, (joinableGroup s z).isSome⟩
    let request (i : Byte) : Notice :=
      { kind := .verdictRequest, uptime := s.uptime, zone := some z, subject := .door d,
        data := [i] ++ byte4 b.toNat ++ byte1 k.code ++ byte1 digits.length ++ digitBytes digits ++ byte1 s.hours.state.code
          ++ byteFlag (joinableGroup s z).isSome }
    let duress (x : Subject) (u : State) : Prop := (k ≠ .duress → u = s)
      ∧ (k = .duress → u = raiseAlarm .duress (some z) x s
          ∧ (s.alarms.queue.length < 32 → u.alarmPresent .duress (some z) x = true))
    let told (pattern : Option Pattern) (outcome : Decided) (reason : PassageReason) (u : State) : Prop :=
      DecidedAs d .corridor pattern b .none outcome reason none [] none u t
    (isOuter d = false → t = s)
    ∧ (isOuter d = true → badgeOk b = false → ∃ u, duress .none u ∧ told (some .denied) .denied .badBadge u)
    ∧ (isOuter d = true → badgeOk b = true → ∃ u, duress (.badge b) u
        ∧ (s.egressOnly z = true → s.inEvacuation z = true → told none .denied .policy u)
        ∧ (s.egressOnly z = true → s.inEvacuation z = false → s.lockdownFlag z = true → told (some .lockdown) .denied .policy u)
        ∧ (s.egressOnly z = true → s.inEvacuation z = false → s.lockdownFlag z = false → told (some .denied) .denied .policy u)
        ∧ (s.egressOnly z = false →
          ((∃ q ∈ s.passage.queries, q.door = d) → told (some .wait) .wait .doorBusy u)
          ∧ ((∀ q ∈ s.passage.queries, q.door ≠ d) →
            ((8 ≤ s.passage.queries.length ∨ s.passage.silent = true) → t = cacheDecide p u)
            ∧ (s.passage.queries.length < 8 → s.passage.silent = false →
              (s.ports.access.notices.length < 48 → ∃ i, (∀ q ∈ s.passage.queries, q.id ≠ i)
                ∧ t.passage = { s.passage with queries := (s.passage.queries ++ [query i]), nextQuery := (i + 1) }
                ∧ t.port .access = { s.port .access with notices := ((s.port .access).notices ++ [request i]) }
                ∧ (∀ q, q ≠ PortId.access → t.port q = s.port q) ∧ ReaderSent z .corridor .wait u t
                ∧ SameBut [.passage, .loops, .ports] u t)
              ∧ (48 ≤ s.ports.access.notices.length → ∃ v,
                v.port .access = { s.port .access with resync := true, drops := (min ((s.port .access).drops + 1) 65535) }
                ∧ (∀ q, q ≠ PortId.access → v.port q = s.port q) ∧ SameBut [.ports] u v ∧ t = cacheDecide p v)))))

/-- A badge at the vestibule or vault reader (R68, R72, R74, R92). With no entry of the badge at the reader's place nothing but the reply to the
reader follows, or at the vault a REX; else a release of the zone's group is requested at a SECURED inner door (which carries none, R28), one
not yet opened is joined and its window restarted, and in any other state the badge waits. That it waits at such a release too where the door
refuses the restart (THROWING by lapse or cut), its entry and the release as they were, is the model's choice (log entry 23). The outcomes
and reasons of the notices that R68 and R72 leave open are the model's choice (log entries 13 and 53). A CHECK_IN counts, and AFTER_HOURS
sets the deadline anew and ends the overdue condition; that it gives no notice is the model's choice (log entry 13). -/
def Obligations.InnerBadgesAreDecided : Prop :=
  ∀ (l : LoopId) (a : SlotId) (b : Badge) (k : Terminator) (digits : List Nat) (s : State), isOuter (doorAt l a) = false →
    badgeOk b = true →
    let d := doorAt l a
    let z := zoneOf d
    let report (side : Side) (intent : Bool) := takeReport l a (.badge side b intent k digits) s
    let attached (t : State) (kind : ReleaseKind) (g : Nat) : Prop :=
      (t.door d).release.map (fun r => (r.kind, r.origin, r.group)) = some (kind, .reader, some g)
    let joins (t : State) (e : Entry) (g : Nat) : Prop :=
      t.pool = s.pool.map fun x => if x.zone = z ∧ x.number = e.number then { x with group := (some g) } else x
    let restarted (t : State) : Prop := (s.door d).state = .unlocked →
      ((t.door d).release.bind (·.window)) = some (s.now + s.partCfg.releaseWindow * 1000)
    let early : Prop := (s.door d).state = .unlocked ∨ (s.door d).state = .queued ∨ (s.door d).state = .withdrawing
    let told (side : Side) (pattern : Option Pattern) (outcome : Decided) (reason : PassageReason) (u t : State) : Prop :=
      DecidedAs d side pattern b .none outcome reason none [] none u t
    (∀ intent, let t := report .vestibule intent
      (entryHere s z b .vestibule = none → told .vestibule (some .denied) .denied .none s t)
      ∧ (∀ e, entryHere s z b .vestibule = some e →
        ((s.door d).state = .secured → (s.door d).release = none → s.egressOnly z = false →
          ∃ g, (t.zonePassage z).vestibuleGroup = some g ∧ joins t e g
            ∧ (∀ v, liveGroup s (s.zonePassage z).vestibuleGroup = some v → g = v)
            ∧ (attached t .passage g ∨ (8 ≤ (s.rail (s.railOf d)).queue.length ∧ (t.door d).release = none)))
        ∧ ((s.door d).state = .secured → (s.door d).release = none → s.egressOnly z = true → ∃ g u, joins u e g
            ∧ SameBut [.passage, .pool, .zones] s u
            ∧ told .vestibule (if s.inEvacuation z then none else if s.lockdownFlag z then some .lockdown else some .denied)
                .denied .policy u t)
        ∧ (∀ v r, liveGroup s (s.zonePassage z).vestibuleGroup = some v → (s.door d).release = some r → r.kind = .passage →
          r.opened = false → r.group = some v → early → joins t e v ∧ restarted t)
        ∧ ((s.door d).state ≠ .secured → ((s.door d).unopened .passage = false ∨ ¬ early ∨ (s.door d).group = none
            ∨ (s.door d).group ≠ liveGroup s (s.zonePassage z).vestibuleGroup) → told .vestibule (some .wait) .wait .doorBusy s t)))
    ∧ (let t := report .vault false
      (entryHere s z b .inner = none → t = takeReport l a (.rex .vault) s)
      ∧ (∀ e, entryHere s z b .inner = some e →
        ((s.door d).state = .secured → (s.door d).release = none → ∃ g, (t.zonePassage z).exitGroup = some g ∧ joins t e g
            ∧ attached t .egress g)
        ∧ (∀ r, (s.door d).release = some r → r.kind = .egress → r.opened = false → early →
            ∃ g, (t.zonePassage z).exitGroup = some g ∧ joins t e g ∧ (t.door d).release.bind (·.group) = some g
              ∧ (∀ v, r.group = some v → g = v) ∧ restarted t)
        ∧ ((s.door d).state ≠ .secured → ((s.door d).unopened .egress = false ∨ ¬ early) → told .vault (some .wait) .wait .doorBusy s t)))
    ∧ (let t := report .vault true
      (entryHere s z b .inner = none → SameBut [.loops] s t)
      ∧ (∀ e, entryHere s z b .inner = some e →
        t.pool = (s.pool.map fun x => if x.zone = z ∧ x.number = e.number then
            { x with checkIns := (min (x.checkIns + 1) 255),
                     deadline := (if s.hours.state = .afterHours then
                       some (s.uptime + (s.cfg z).loneInterval * 60 / (if x.lone then 2 else 1)) else x.deadline) } else x)
        ∧ (s.hours.state = .afterHours → t.alarmPresent .loneWorkerOverdue (some z) (.badge b) = false)
        ∧ (s.hours.state = .dayHours → SameBut [.pool, .zones, .loops] s t)
        ∧ SameBut [.pool, .zones, .hours, .alarms, .loops] s t))

/-- What the passage unit settles (R71, R73, R76). The entry group enters the vestibule behind the outer door; behind the inner door the
vestibule group is INNER without a group, fewer crossings add COUNT_MISMATCH, and each crossing beyond the size makes an anonymous entry,
or TAILGATE_OVERFLOW, and TAILGATE. On the way out the net crossings move the exit group, first entry first, and then the oldest anonymous
entries, these by one claim (log entry 31), and set pending outer egress, which may request the release at once; too few moved take the
rest out of the group and add COUNT_MISMATCH, too few anonymous entries add UNBADGED_EXIT. So it is when the inner door's release ends opened; one
that ends ABANDONED after opening moves nothing and adds COUNT_MISMATCH, the tally discarded, an inbound group left at VESTIBULE in its slot, an
exit group's entries left INNER without a group (R73, R76). One that ends unopened moves nothing, and crossings counted under it add
COUNT_MISMATCH (R72, R78). -/
def Obligations.CyclesAreSettled : Prop :=
  ∀ (z : Zone) (g : Nat) (s : State), PoolNumbered s →
    let x := s.zonePassage z
    let inGroup (at_ : Location) (e : Entry) : Bool := e.zone == z && e.group == some g && e.location == at_
    let moved (src dst : Location) (group : Option Nat) : List Entry :=
      s.pool.map fun e => if inGroup src e then { e with location := dst, group := group } else e
    (let t := groupEnters z g s;
      PoolIs t (moved .admitted .vestibule (some (x.vestibuleGroup.getD g))) ∧ (t.zonePassage z).entryGroup ≠ some g
      ∧ (t.zonePassage z).vestibuleGroup = some (x.vestibuleGroup.getD g))
    ∧ (let t := settleInbound z g s
      let size := (s.pool.filter (inGroup .vestibule)).length
      let beyond := x.tallyIn - x.tallyOut - size
      (t.zonePassage z).vestibuleGroup ≠ some g
      ∧ (x.tallyIn < size + x.tallyOut →
          PoolIs t (moved .vestibule .inner none) ∧ (t.zone z).reasons.countMismatch = true)
      ∧ (x.tallyIn = size + x.tallyOut →
          PoolIs t (moved .vestibule .inner none) ∧ (t.zone z).reasons = (s.zone z).reasons)
      ∧ (size + x.tallyOut < x.tallyIn → ∃ es : List Entry, PoolIs t (moved .vestibule .inner none ++ es)
          ∧ (∀ e ∈ es, e.zone = z ∧ e.badge = none ∧ e.location = .inner) ∧ es.length ≤ beyond
          ∧ (es.length < beyond → (t.zone z).reasons.tailgateOverflow = true)
          ∧ (s.alarms.queue.length < 32 → t.alarmPresent .tailgate (some z) (.door (innerDoor z)) = true)))
    ∧ (∀ out : Option Nat, let t := settleOutbound z out s
      let exits (e : Entry) : Bool := e.zone == z && out.isSome && e.group == out && e.location == .inner
      let anonymous (e : Entry) : Bool := e.zone == z && e.badge == none && e.location == .inner
      let size := (s.pool.filter exits).length
      let others := (s.pool.filter fun e => anonymous e && !exits e).length
      let net := x.tallyOut - x.tallyIn
      let out1 := changeFirst exits (fun e => { e with location := .vestibule, group := none }) net s.pool
      let out2 := out1.map fun e => if exits e then { e with group := none } else e
      (t.zonePassage z).exitGroup = none
      ∧ (x.tallyOut < x.tallyIn → t.pool = s.pool ∧ (t.zone z).reasons.countMismatch = true)
      ∧ (x.tallyIn ≤ x.tallyOut →
        PoolIs t (changeFirst anonymous (fun e => { e with location := .vestibule }) (net - size) out2)
        ∧ (net < size → (t.zone z).reasons.countMismatch = true)
        ∧ (others < net - size → (t.zone z).reasons.unbadgedExit = true)
        ∧ (size ≤ net → net ≤ size + others → (t.zone z).reasons = (s.zone z).reasons)
        ∧ (0 < net → 0 < size + others → (t.zonePassage z).pendingOuter = true
            ∨ (t.door (outerDoor z)).release.map (fun r => (r.kind, r.origin, r.group)) = some (.egress, .cycle, none))))
    ∧ ∀ (r : Release) (outcome : ReleaseEnd) (lost : Bool),
      let t := releaseEnded (innerDoor z) r outcome lost s
      let y := t.zonePassage z
      let exits (e : Entry) : Bool := e.zone == z && r.group.isSome && e.group == r.group && e.location == .inner
      let counted : Prop := r.origin ≠ .master ∧ (outcome = .complete ∨ outcome = .lapsed ∨ outcome = .abandoned)
        ∧ ¬ (x.tallyIn = 0 ∧ x.tallyOut = 0)
      (r.opened = true → outcome ≠ .abandoned → (r.kind = .passage → r.group = some g → t = settleInbound z g s)
        ∧ (r.kind = .egress → t = settleOutbound z r.group s))
      ∧ (r.opened = true → outcome = .abandoned → r.kind = .passage → r.group = some g → PoolIs t s.pool
          ∧ y.vestibuleGroup = x.vestibuleGroup ∧ y.tallyIn = 0 ∧ y.tallyOut = 0 ∧ (t.zone z).reasons.countMismatch = true)
      ∧ (r.opened = true → outcome = .abandoned → r.kind = .egress →
          PoolIs t (s.pool.map fun e => if exits e then { e with group := none } else e)
          ∧ y.exitGroup = none ∧ y.tallyIn = 0 ∧ y.tallyOut = 0 ∧ (t.zone z).reasons.countMismatch = true)
      ∧ (r.opened = false → PoolIs t s.pool ∧ y.vestibuleGroup = x.vestibuleGroup ∧ y.exitGroup = x.exitGroup
          ∧ (counted → (t.zone z).reasons.countMismatch = true) ∧ (¬ counted → (t.zone z).reasons = (s.zone z).reasons)
          ∧ (r.kind = .passage → r.group = some g → y.pendingInner = false))
      ∧ SameBut [.pool, .zones, .doors, .hours, .passage, .alarms, .loops, .ports] s t

/-- A STATUS record goes to the door unit, the reconciliation and the sweep unit, and to the tamper handling (R173). An UNVERIFIED door takes
the state it shows (R42), one in FAULT is SECURED when thrown and closed (R40), and in every state the travel is judged (R27, R42, R51, R109;
read so, log entry 42). The inner station's tallies are reconciled with the crossings received and become the baseline (R155). A sweep
holds the contents of each reply (R154), and with both its result is by R156. That what the door hands on is taken before the
reconciliation is the model's choice (log entry 5). -/
def Obligations.StatusRepliesReconcileAndSweep : Prop :=
  (∀ (l : LoopId) (a : SlotId) (r : StatusRecord) (s : State),
    let d := doorAt l a
    let cleared := s.setSlot l a { s.slot l a with overflowQuery := false }
    let u := settle Config.handOnBound (statusReport d r.contactOpen r.boltWithdrawn r.travel cleared)
    let v := if isOuter d then u else reconcile (zoneOf d) r.tallyIn r.tallyOut (s.slot l a).overflowQuery u
    let contents : SweepReply := ⟨r.contactOpen, r.boltWithdrawn, r.travel, r.tallyIn, r.tallyOut⟩
    takeStatus l a r s
      = takeReport l a (.tamper r.tamperOn)
          (sweepReply d contents (some (reconcileFinding u (zoneOf d) r.tallyIn r.tallyOut)) v))
  ∧ (∀ (d : DoorId) (open_ withdrawn : Bool) (travel : Nat) (s : State),
    let t := statusReport d open_ withdrawn travel s
    let x := s.door d
    let limit := (s.cfg (zoneOf d)).travelLimit
    let clash : Prop := s.inEvacuation (zoneOf d) = false ∧ (s.door (otherDoor d)).state.moving = true
    let degraded := t.alarmPresent .lockDegraded (some (zoneOf d)) (.door d)
    ((t.door d).contact = (if open_ then .opened else .closed) ∧ (t.door d).bolt = (if withdrawn then .withdrawn else .thrown)
      ∧ (t.door d).travel = travel ∧ (t.door d).degraded = decide (limit < travel)
      ∧ (travel ≤ limit → degraded = false) ∧ (limit < travel → s.alarms.queue.length < 31 → degraded = true))
    ∧ (x.state = .unverified →
      (open_ = false → withdrawn = false → (t.door d).state = .secured)
      ∧ ((open_ = true ∨ withdrawn = true) → clash → (t.door d).state = .fault)
      ∧ (open_ = true → ¬ clash → (t.door d).state = .opened)
      ∧ (open_ = false → withdrawn = true → ¬ clash → (t.door d).state = .throwing))
    ∧ (x.state = .fault → (t.door d).state = (if open_ = false ∧ withdrawn = false then .secured else .fault))
    ∧ (x.state ≠ .unverified → x.state ≠ .fault → (t.door d).state = x.state ∧ SameBut [.doors, .alarms] s t)
    ∧ OtherDoors d s t)
  ∧ (∀ (z : Zone) (i o : Nat) (check : Bool) (s : State),
    let t := reconcile z i o check s
    let slot := s.slot (loopOf z) (slotOf (innerDoor z))
    let h := (s.zone z).headcount
    t.slot (loopOf z) (slotOf (innerDoor z)) = { slot with tallies := (some (i, o)) }
    ∧ nth t.sweep.beamsIn z = 0 ∧ nth t.sweep.beamsOut z = 0
    ∧ (slot.tallies = none → t.zones = s.zones)
    ∧ (∀ bi bo, slot.tallies = some (bi, bo) →
      let mi := missingCrossings i bi (nth s.sweep.beamsIn z)
      let mo := missingCrossings o bo (nth s.sweep.beamsOut z)
      (mi ≤ 255 → mo ≤ 255 → (t.zone z).headcount = min (h + mi - mo) 255
        ∧ ((h + mi < mo ∨ 255 < h + mi - mo ∨ (check = true ∧ (mi ≠ 0 ∨ mo ≠ 0))) → (t.zone z).reasons.countMismatch = true)
        ∧ (mo ≤ h + mi → h + mi - mo ≤ 255 → (check = false ∨ (mi = 0 ∧ mo = 0)) → (t.zone z).reasons = (s.zone z).reasons))
      ∧ ((255 < mi ∨ 255 < mo) → (t.zone z).headcount = h ∧ (t.zone z).reasons.countMismatch = true)))
  ∧ ∀ (d : DoorId) (c : SweepReply) (found : Option Reconciled) (s : State) (r : SweepRec),
    let t := sweepReply d c found s
    let z := zoneOf d
    (s.sweep.inProgress = none → t = s)
    ∧ (s.sweep.inProgress = some r → r.zone ≠ z → t = s)
    ∧ (s.sweep.inProgress = some r → r.zone = z →
      let kept : SweepRec := if isOuter d then { r with outer := (some c) } else { r with inner := (some c), reconciled := found }
      ((if isOuter d then r.inner else r.outer) = none → t = { s with sweep := { s.sweep with inProgress := (some kept) } })
      ∧ (∀ o i, kept.outer = some o → kept.inner = some i →
        let mismatch : Prop := o.contactOpen = true ∨ i.contactOpen = true ∨ o.boltWithdrawn = true ∨ i.boltWithdrawn = true
          ∨ (s.door (outerDoor z)).state ≠ .secured ∨ (s.door (innerDoor z)).state ≠ .secured
          ∨ (s.zone z).headcountValid = false ∨ (s.zone z).headcount ≠ s.countAt z .inner
        let slow : Prop := (s.cfg z).travelLimit < o.travel ∨ (s.cfg z).travelLimit < i.travel
        let ends (result : SweepOutcome) : Prop :=
          t = endSweep kept result { s with sweep := { s.sweep with inProgress := (some kept) } }
        (mismatch → ends .mismatch) ∧ (¬ mismatch → slow → ends .degraded) ∧ (¬ mismatch → ¬ slow → ends .pass)))

/-- What each result of a sweep leaves (R11, R109, R157): the reasons, the sweep mark, the deferral count and the alarms; with no sweep-all
list the sweep is over and the door unit's mark clear. -/
def Obligations.SweepResultsAreApplied : Prop :=
  ∀ (r : SweepRec) (result : SweepOutcome) (s : State), result ≠ .none → s.sweep.allList = none →
    let z := r.zone
    let t := endSweep r result s
    let x := s.zone z
    let y := t.zone z
    t.sweep.inProgress = none ∧ t.sweep.allList = none ∧ (result ≠ .abandoned → t.underSweep z = false)
    ∧ y.lastResult = result ∧ y.sweepMark = false ∧ y.late = ReasonSet.empty ∧ y.headcount = x.headcount
    ∧ (result = .pass → y.reasons = { x.late with restart := (x.late.restart || x.reasons.restart) } ∧ y.deferrals = 0
        ∧ t.alarmPresent .sweepMismatch (some z) .none = false ∧ t.alarmPresent .sweepOverdue (some z) .none = false
        ∧ t.alarmPresent .tailgate (some z) (.door (innerDoor z)) = false)
    ∧ (result = .mismatch → y.reasons = { x.reasons with countMismatch := true } ∧ y.deferrals = 0
        ∧ (s.alarms.queue.length < 32 → t.alarmPresent .sweepMismatch (some z) .none = true))
    ∧ (result = .degraded → y.reasons = x.reasons ∧ y.deferrals = 0)
    ∧ ((result = .noReply ∨ result = .abandoned) → y.reasons = x.reasons
        ∧ y.deferrals = (if x.inService then min (x.deferrals + 1) 3 else x.deferrals)
        ∧ (x.inService = true → 2 ≤ x.deferrals → s.alarms.queue.length < 32 →
            t.alarmPresent .sweepOverdue (some z) .none = true))
    ∧ SameBut [.zones, .pool, .doors, .passage, .hours, .alarms, .sweep, .loops, .ports] s t

/-! ### Timers of the passage, door and hours units -/

/-- QUERY_TIMEOUT ends its query, the count rises toward SILENT, and the presentation is decided from the cache: one whose badge the
cache does not hold is denied (R60, R64). CACHE_EXPIRY removes the entry (R62). -/
def Obligations.QueryTimesOutAndCacheExpires : Prop :=
  ∀ s : State,
    (∀ q id, lateQuery s id = some q → ∃ s1, EndsWith (.queryTimeout id) s (cacheDecide q.presentation s1)
      ∧ s1.passage.queries = s.passage.queries.filter (fun x => x.id != q.id)
      ∧ s1.passage.timeouts = min (s.passage.timeouts + 1) 3 ∧ s1.passage.cache = s.passage.cache
      ∧ (2 ≤ s.passage.timeouts → s1.passage.silent = true) ∧ SameBut [.passage] s s1
      ∧ ((s.passage.cache.any fun e => e.badge == q.badge) = false →
          DecidedAs q.door .corridor (some .denied) q.badge .cache .denied .noCredential none [] (some q.id) s1
            (cacheDecide q.presentation s1)))
    ∧ (∀ b, (s.passage.cache.any fun e => e.badge == b && e.expiresAt ≤ s.uptime) = true →
      ∃ e, EndsWith (.cacheExpiry b) s e ∧ e.passage.cache = (s.passage.cache.filter fun x => x.badge != b)
        ∧ SameBut [.passage] s e)

/-- SETTLE_END stops the settle time and re-evaluates the zone's releases, the earlier queued at first and the outer door's when equal
(R30, R31). The re-evaluation of a QUEUED release: another reason than RAIL keeps it off its rail; with none it is offered to the rail as a
new arrival, and begins its withdrawal, joins the queue at its place, or meets a full one (R30, R33, R48, R49). QUEUED_WAIT_EXPIRY ends a
non-egress release of 10 s, the door SECURED with its secured at and settle time as they were (R32). RAIL_ROOM starts the heads of the
rail's queue one after another while there is room, at most the four of R48, the rest kept and refilled from outside (R50). -/
def Obligations.QueuedReleasesMoveOn : Prop :=
  (∀ (d : DoorId) (s : State), s.reached (s.door d).settleEnds = true →
    let z := zoneOf d
    let since (y : DoorId) : Nat := ((s.door y).release.map (·.queuedAt)).getD 0
    let first := if since (innerDoor z) < since (outerDoor z) then innerDoor z else outerDoor z
    ∃ e, EndsWith (.settleEnd d) s e ∧ (e.door d).settleEnds = none
      ∧ e = evaluateDoor (otherDoor first) (evaluateDoor first (s.setDoor d { s.door d with settleEnds := none }))
      ∧ SameBut [.doors, .passage, .loops] s e)
  ∧ (∀ (d : DoorId) (u : State),
    let x := u.door d
    let o := u.door (otherDoor d)
    let z := zoneOf d
    let k := u.railOf d
    let q := (u.rail k).queue
    let t := evaluateDoor d u
    let exempt (kind : ReleaseKind) : Prop := kind = .egress ∧ u.inEvacuation z = true
    ((x.state ≠ .queued ∨ x.release = none) → t = u)
    ∧ ∀ r, x.state = .queued → x.release = some r →
      let w := otherReasons u d r.kind
      let waits : Release := { r with wait := ⟨false, false, false, true⟩ }
      let joined := if r.kind = .egress then q.filter u.isEgress ++ [d] ++ q.filter (fun v => !u.isEgress v) else q ++ [d]
      (w.interlock = true ↔ ¬ exempt r.kind ∧ ((o.state ≠ .secured ∧ o.state ≠ .queued)
        ∨ (o.state = .queued ∧ ∃ p, o.release = some p ∧ p.wait.interlock = false ∧ ¬ exempt p.kind)))
      ∧ (w.settle = true ↔ ∃ m, x.settleEnds = some m ∧ u.now < m)
      ∧ (w.sweep = true ↔ u.underSweep z = true ∧ r.kind ≠ .egress)
      ∧ (w.other = true → t.door d = { x with release := (some { r with wait := w }) }
          ∧ (r.wait.rail = true → d ∉ (t.rail k).queue ∧ d ∉ (t.rail k).outside)
          ∧ (r.wait.rail = false → ∀ j, t.rail j = u.rail j) ∧ OtherDoors d u t ∧ SameBut [.doors] u t)
      ∧ (w.other = false → r.wait.rail = true → t.doors = u.doors ∧ SameBut [] u t)
      ∧ (w.other = false → r.wait.rail = false →
        (q = [] → u.railHasRoom k = true → (t.door d).state = .withdrawing
          ∧ (t.door d).boltTimer = some (u.now + 2 * (u.cfg z).travelLimit)
          ∧ (t.door d).release = some { r with wait := WaitSet.empty } ∧ (t.rail k).history.getLast? = some u.now
          ∧ OtherDoors d u t ∧ SameBut [.doors, .passage, .loops] u t)
        ∧ ((q ≠ [] ∨ u.railHasRoom k = false) → SameBut [.doors] u t
          ∧ (q.length < 8 → t.door d = { x with release := (some waits) } ∧ (t.rail k).queue = joined ∧ OtherDoors d u t)
          ∧ (8 ≤ q.length → r.kind ≠ .egress → t.door d = { x with state := .secured, release := none }
              ∧ HandOn.released d waits .railBusy false ∈ t.work.handOns ∧ OtherDoors d u t)
          ∧ (8 ≤ q.length → r.kind = .egress → ∀ newest, (q.filter fun v => !u.isEgress v).getLast? = some newest →
              t.door d = { x with release := (some waits) } ∧ d ∈ (t.rail k).queue
              ∧ t.door newest = { u.door newest with state := .secured, release := none }
              ∧ (∀ p, (u.door newest).release = some p → HandOn.released newest p .railBusy false ∈ t.work.handOns)
              ∧ ∀ v, v ≠ d → v ≠ newest → t.door v = u.door v)
          ∧ (8 ≤ q.length → r.kind = .egress → (∀ v ∈ q, u.isEgress v = true) → t.door d = { x with release := (some waits) }
              ∧ (t.rail k).queue = q ∧ (t.rail k).outside = (u.rail k).outside ++ [d] ∧ OtherDoors d u t))))
  ∧ (∀ (d : DoorId) (s : State) (r : Release), (s.door d).release = some r →
    (r.kind = .egress → exec (.queuedWaitExpiry d) s = .next s)
    ∧ ((s.door d).state = .queued → r.kind ≠ .egress → r.queuedAt + 10000 ≤ s.now →
      ∃ e, EndsWith (.queuedWaitExpiry d) s e ∧ e.door d = { s.door d with state := .secured, release := none }
        ∧ HandOn.released d r .waitExpired false ∈ e.work.handOns ∧ d ∉ (e.rail (s.railOf d)).queue
        ∧ OtherDoors d s e ∧ SameBut [.doors] s e))
  ∧ (∀ (k : Rail) (s : State), s.started = true → s.railHasRoom k = true → EndsWith (.railRoom k) s (startHeads k 4 s))
  ∧ ∀ (k : Rail) (n : Nat) (s : State),
    (((s.rail k).queue = [] ∨ s.railHasRoom k = false) → startHeads k n s = s)
    ∧ ∀ d rest, s.railHasRoom k = true → (s.rail k).queue = d :: rest → s.railOf d = k → d ∉ rest → d ∉ (s.rail k).outside →
      ∃ u, startHeads k (n + 1) s = startHeads k n u ∧ (u.door d).state = .withdrawing
        ∧ (u.door d).boltTimer = some (s.now + 2 * (s.cfg (zoneOf d)).travelLimit)
        ∧ (u.door d).release = (s.door d).release.map (fun r => { r with wait := WaitSet.empty })
        ∧ (u.rail k).history.getLast? = some s.now
        ∧ ((s.rail k).outside = [] → (u.rail k).queue = rest ∧ (u.rail k).outside = [])
        ∧ (∀ v vs, (s.rail k).outside = v :: vs → rest.length < 8 → (u.rail k).outside = vs
            ∧ (u.rail k).queue = if s.isEgress v then rest.filter s.isEgress ++ [v] ++ rest.filter (fun y => !s.isEgress y)
                else rest ++ [v])
        ∧ (∀ j, j ≠ k → u.rail j = s.rail j) ∧ OtherDoors d s u ∧ SameBut [.doors, .loops, .passage] s u

/-- BOLT_TIMER_EXPIRY takes a door to FAULT and leaves DOOR_FAULT PRESENT; WINDOW_LAPSE throws an UNLOCKED door; HELD_OPEN_EXPIRY leaves it
OPEN and raises DOOR_HELD (R33, R36, R38, R40); that the window deadline ends with the window is the model's choice (log entry 32). -/
def Obligations.DoorTimersExpire : Prop :=
  ∀ (d : DoorId) (s : State),
    (s.reached (s.door d).boltTimer = true → ((s.door d).state = .withdrawing ∨ (s.door d).state = .throwing) →
      ∃ e, EndsWith (.boltTimerExpiry d) s e ∧ (e.door d).state = .fault ∧ (e.door d).release = none
        ∧ (e.door d).relock = false ∧ (e.door d).boltTimer = none
        ∧ (∀ r, (s.door d).release = some r → HandOn.released d r .abandoned false ∈ e.work.handOns)
        ∧ (s.alarms.queue.length < 32 → e.alarmPresent .doorFault (some (zoneOf d)) (.door d) = true)
        ∧ OtherDoors d s e ∧ SameBut [.doors, .alarms, .loops] s e)
    ∧ (∀ r, s.reached (s.windowDeadline d) = true → (s.door d).state = .unlocked → (s.door d).release = some r →
      ∃ e, EndsWith (.windowLapse d) s e ∧ (e.door d).state = .throwing
        ∧ (e.door d).release = some { r with lapsed := true, window := none }
        ∧ (e.door d).boltTimer = some (s.now + 2 * (s.cfg (zoneOf d)).travelLimit)
        ∧ HandOn.lapse d r.group ∈ e.work.handOns ∧ OtherDoors d s e ∧ SameBut [.doors, .loops] s e)
    ∧ (s.reached (s.door d).heldOpen = true → (s.door d).state = .opened →
      ∃ e, EndsWith (.heldOpenExpiry d) s e ∧ e.door d = { s.door d with heldOpen := none }
        ∧ (s.alarms.queue.length < 32 → e.alarmPresent .doorHeld (some (zoneOf d)) (.door d) = true)
        ∧ OtherDoors d s e ∧ SameBut [.doors, .alarms] s e)

/-- MINUTE_BOUNDARY evaluates the hours state (R86); WARN_CHECKIN_RESEND keeps the mark with its next re-sending 60 s on (R90);
PAIR_EXPIRED clears the pairing record and what is held beside it (R97). -/
def Obligations.HoursTimersExpire : Prop :=
  ∀ s : State,
    (s.hours.clockValid = true → s.hours.clock % 60 = 0 → ∃ e, EndsWith .minuteBoundary s e
      ∧ (e.hours.state = .dayHours ↔ ∃ w ∈ s.hours.schedule, w.holds s.hours.clock = true)
      ∧ e.hours.clock = s.hours.clock ∧ SameBut [.hours, .pool, .zones, .passage, .alarms, .loops, .ports] s e)
    ∧ (∀ z t, s.warning z = some t → t ≤ s.uptime → ∃ e, EndsWith (.warnCheckinResend z) s e
      ∧ e.warning z = some (t + 60) ∧ SameBut [.hours, .loops] s e)
    ∧ (∀ z p, (s.zone z).pairing = some p → p.deadline ≤ s.now → ∃ e, EndsWith (.pairExpired z) s e
      ∧ e.zone z = { s.zone z with pairing := none }
      ∧ (e.zonePassage z).held = none ∧ SameBut [.zones, .passage, .loops, .ports] s e)

/-- A deadline's expiry removes it and raises LONE_WORKER_OVERDUE; the lead sets the zone's warning mark (R90, R91). -/
def Obligations.DeadlineExpiresAfterWarning : Prop :=
  ∀ (n : EntryNo) (e0 : Entry) (b : Badge) (s : State),
    (deadlineEntry s n 0 = some (e0, b) → ∃ e, EndsWith (.loneWorkerDeadlineExpiry n) s e
      ∧ (∀ x ∈ e.pool, x.number = n → x.zone = e0.zone → x.deadline = none)
      ∧ e.pool.map (·.badge) = s.pool.map (·.badge)
      ∧ (s.alarms.queue.length < 32 → e.alarmPresent .loneWorkerOverdue (some e0.zone) (.badge b) = true)
      ∧ SameBut [.pool, .zones, .hours, .alarms, .loops, .ports] s e)
    ∧ (deadlineEntry s n 120 = some (e0, b) → s.hours.state = .afterHours → s.warning e0.zone = none →
      ∃ e, EndsWith (.warningLeadReached n) s e ∧ e.warning e0.zone = some (s.uptime + 60)
      ∧ SameBut [.hours, .loops] s e)

/-! ### Timers of the suppression and sweep units -/

/-- A countdown that has reached 0 releases; a confirm deadline without pressure is a RELEASE_FAULT and raises its alarm; the soak deadline
sets soak complete and is dropped, the zone stays in SOAK, and a notice of cause SOAK_COMPLETE is due unless the zone's notice is due
already (R100, R130, R131, R132, R134). -/
def Obligations.SuppressionDeadlinesAct : Prop :=
  ∀ (z : Zone) (s : State),
    ((s.suppRec z).state = .preDischarge → (s.suppRec z).countdown = 0 → ∃ e, EndsWith (.countdownExpiry z) s e
      ∧ e.suppRec z
          = { s.suppRec z with state := .releasing, cause := (some .automatic), countdown := 0,
                               deadline := (some (s.now + (s.cfg z).confirmTime * 1000)) }
      ∧ (∀ y, y ≠ z → e.suppRec y = s.suppRec y) ∧ e.supp.window = s.supp.window ∧ SameBut [.supp] s e)
    ∧ ((s.suppRec z).state = .releasing → s.reached (s.suppRec z).deadline = true → ∃ e, EndsWith (.confirmTimeout z) s e
      ∧ e.suppRec z = { s.suppRec z with state := .releaseFault, deadline := none }
      ∧ (∀ y, y ≠ z → e.suppRec y = s.suppRec y) ∧ e.supp.window = s.supp.window
      ∧ e.alarms.queue = (raiseAlarm .releaseFault (some z) .none s).alarms.queue
      ∧ (s.alarms.queue.length < 32 → e.alarmPresent .releaseFault (some z) .none = true) ∧ SameBut [.supp, .alarms] s e)
    ∧ ∀ t : Nat, (s.suppRec z).state = .soak → (s.suppRec z).deadline = some t → t ≤ s.now →
      ∃ e, EndsWith (.soakComplete z) s e ∧ e.suppRec z = { s.suppRec z with soakComplete := true, deadline := none }
        ∧ e.work.due = s.work.due
            ++ (if s.work.due.any (DueNotice.ofSuppression z) then [] else [.suppression z .soakComplete])
        ∧ e.inEvacuation z = true ∧ (e.suppRec z).state.sounder = .discharge ∧ (∀ y, y ≠ z → e.suppRec y = s.suppRec y)
        ∧ e.supp.window = s.supp.window ∧ SameBut [.supp] s e

/-- The chord qualifies at its deadline: it is spent, and opens the force window when the flag is enabled and the window CLOSED (R141,
R180). The window closes at its time and discards its halves (R144). -/
def Obligations.ForceWindowOpensAndExpires : Prop :=
  ∀ s : State,
    (s.started = true → s.reached s.lines.chordDeadline = true → ∃ e, EndsWith .chordQualifies s e
      ∧ e.lines.chordDeadline = none ∧ e.lines.chordSpent = true ∧ e.lines.table = s.lines.table
      ∧ e.supp.window = (if s.control.forceChord && s.supp.window.closesAt.isNone then ⟨some (s.now + 60000), none, none⟩
          else s.supp.window)
      ∧ e.supp.zones = s.supp.zones ∧ SameBut [.lines, .supp, .ports] s e)
    ∧ (s.reached s.supp.window.closesAt = true → ∃ e, EndsWith .forceWindowExpired s e
      ∧ e.supp.window = ⟨none, none, none⟩ ∧ e.supp.zones = s.supp.zones ∧ SameBut [.supp, .ports] s e)

/-- The interval timer takes the zone at the pointer and restarts. A zone that can be swept is: both doors SECURED, suppression NORMAL, ALERT or
ISOLATED, both stations ONLINE, no sweep on another zone, no sweep-all list that does not begin with it; any other is deferred, and a third
deferral raises SWEEP_OVERDUE (R151, R152, R153). -/
def Obligations.IntervalTakesThePointer : Prop :=
  ∀ s : State, s.reached s.sweep.timer = true →
    let z := s.sweep.pointer
    let online (d : DoorId) : Prop := (s.slot (loopOf (zoneOf d)) (slotOf d)).online = .online
    let fit : Prop := (s.door (outerDoor z)).state = .secured ∧ (s.door (innerDoor z)).state = .secured
      ∧ ((s.suppRec z).state = .normal ∨ (s.suppRec z).state = .alert ∨ (s.suppRec z).state = .isolated)
      ∧ online (outerDoor z) ∧ online (innerDoor z)
      ∧ s.sweep.inProgress = none ∧ (∀ l, s.sweep.allList = some l → l.head? = some z)
    ∃ e, EndsWith .sweepIntervalExpiry s e ∧ e.sweep.pointer = z + 1
      ∧ e.sweep.timer = some (s.now + s.partCfg.sweepInterval * 1000)
      ∧ (((s.zone z).inService = false ∨ s.excludedFlag z = true ∨ s.sweep.inProgress.map (·.zone) = some z) →
          SameBut [.sweep] s e ∧ e.sweep.inProgress = s.sweep.inProgress)
      ∧ ((s.zone z).inService = true → s.excludedFlag z = false → s.sweep.inProgress.map (·.zone) ≠ some z →
        (fit → e.sweep.inProgress = some ⟨z, .scheduled, none, none, none⟩ ∧ e.underSweep z = true
          ∧ (e.zone z).sweepMark = true ∧ (e.zone z).late = ReasonSet.empty
          ∧ SameBut [.sweep, .doors, .zones, .loops] s e)
        ∧ (¬ fit → (e.zone z).deferrals = min ((s.zone z).deferrals + 1) 3
          ∧ e.sweep.inProgress = s.sweep.inProgress
          ∧ (2 ≤ (s.zone z).deferrals → s.alarms.queue.length < 32 → e.alarmPresent .sweepOverdue (some z) .none = true)
          ∧ SameBut [.sweep, .zones, .alarms] s e))

/-! ### Lines -/

/-- A change of candidate restarts the filter; the level held for 20 ms becomes the supervised state (R177), with what NORMAL, ACTIVE and a
fault bring to each kind (R100, R108, R178, R180). A line still ACTIVE at its hold deadline is qualified (R178), and then acts by its kind
(R179): a pull confirms or is seen (R123, R124), a pressure confirms the discharge or is unexpected (R131, R133), PANIC is raised, the
abort is active, the second key begins the chord (R180). -/
def Obligations.LinesFilterAndQualify : Prop :=
  ∀ (n : LineId) (level : Level) (s : State),
    let x := s.line n
    let k := lineKind n
    let hold : Nat := match k with
      | .pull => 2000
      | .abort => 500
      | .panic => 200
      | .pressure => 1000
      | .keyA | .keyB => 0
    let taken (v : Level) : Prop := x.candidate = v ∧ x.supervised ≠ some v ∧ x.since + 20 ≤ s.now
    let fromFault : Prop := x.supervised = some .openCircuit ∨ x.supervised = some .short
    let chord (e : State) : Prop := e.lines.chordSpent = s.lines.chordSpent ∧ e.lines.chordDeadline
      = if (e.line keyALine).qualified = true ∧ (e.line keyBLine).qualified = true ∧ s.lines.chordSpent = false
            ∧ s.lines.chordDeadline = none then some (s.now + 3000) else s.lines.chordDeadline
    let broken (e : State) : Prop := e.lines.chordDeadline = if k.isKey then none else s.lines.chordDeadline
    (x.candidate ≠ level → ∃ e, EndsWith (.candidateChange n level) s e
      ∧ e.line n = { x with candidate := level, since := s.now } ∧ SameBut [.lines] s e)
    ∧ (x.candidate = level → EndsWith (.candidateChange n level) s s)
    ∧ (taken .normal → ∃ e, EndsWith (.lineLevelTaken n) s e
      ∧ e.line n = { x with supervised := some .normal, qualified := false, holdDeadline := none,
                            armed := x.armed || k.needsArming }
      ∧ broken e ∧ e.lines.chordSpent = (s.lines.chordSpent && !k.isKey)
      ∧ e.alarmPresent .lineFault (lineZone n) (.line n) = false ∧ SameBut [.lines, .alarms, .ports] s e)
    ∧ (taken .active → ∃ e, EndsWith (.lineLevelTaken n) s e
      ∧ (k.needsArming = true → x.armed = false →
          e.line n = { x with supervised := some .active } ∧ SameBut [.lines, .ports] s e)
      ∧ (k.isKey = false → (k.needsArming = true → x.armed = true) → (k = .abort → ¬ fromFault) →
          e.line n = { x with supervised := some .active, holdDeadline := some (s.now + hold) }
          ∧ SameBut [.lines, .ports] s e)
      ∧ (k = .abort → fromFault →
          e.line n = { x with supervised := some .active, qualified := true, holdDeadline := none }
          ∧ (∀ z, lineZone n = some z → e.abortActive z = true) ∧ SameBut [.lines, .ports] s e)
      ∧ (k.isKey = true → x.armed = true → s.started = true →
          e.line n = { x with supervised := some .active, qualified := true, holdDeadline := none }
          ∧ chord e ∧ SameBut [.lines, .ports] s e))
    ∧ (∀ v, v = .openCircuit ∨ v = .short → taken v → ∃ e, EndsWith (.lineLevelTaken n) s e
      ∧ e.line n = { x with supervised := some v, qualified := false, holdDeadline := none }
      ∧ broken e ∧ e.lines.chordSpent = s.lines.chordSpent
      ∧ (∀ z, k = .abort → lineZone n = some z → e.abortActive z = true)
      ∧ (s.alarms.queue.length < 32 → e.alarmPresent .lineFault (lineZone n) (.line n) = true)
      ∧ SameBut [.lines, .alarms, .ports] s e)
    ∧ (s.started = true → s.reached x.holdDeadline = true → x.supervised = some .active →
      ∃ e, EndsWith (.qualificationHoldExpiry n) s e ∧ e.line n = { x with qualified := true, holdDeadline := none }
        ∧ (∀ z, k = .pressure → lineZone n = some z →
          ((s.suppRec z).state = .releasing → e.suppRec z = { s.suppRec z with
              state := .soak, soakComplete := false, deadline := some (s.now + (s.cfg z).soakTime * 1000) })
          ∧ ((s.suppRec z).state ≠ .releasing → e.supp = s.supp
              ∧ (s.work.due.any (DueNotice.ofSuppression z) = false →
                  e.work.due = s.work.due ++ [.suppression z .pressureUnexpected])))
        ∧ (∀ z, k = .pull → lineZone n = some z →
          e.suppRec z = (if (s.suppRec z).state = .normal ∨ (s.suppRec z).state = .alert then
              { s.suppRec z with confirmed := true, countdown := (s.cfg z).preDischarge * 1000,
                                 state := (if (s.suppRec z).holds.any then .held else .preDischarge) }
            else { s.suppRec z with pullSeen := true })
          ∧ (s.work.due.any (DueNotice.ofSuppression z) = false → e.work.due = s.work.due ++ [.suppression z .pull]))
        ∧ (∀ z, k = .panic → lineZone n = some z → e.supp = s.supp
          ∧ (s.alarms.queue.length < 32 → e.alarmPresent .panic (some z) (.line n) = true))
        ∧ (∀ z, k = .abort → lineZone n = some z → e.abortActive z = true ∧ SameBut [.lines, .ports] s e)
        ∧ (k.isKey = true → chord e ∧ SameBut [.lines, .ports] s e)
        ∧ SameBut [.lines, .supp, .alarms, .ports] s e)

/-- The sounder follows its pattern's cadence (R145, R181). -/
def Obligations.SounderFollowsCadence : Prop :=
  ∀ (z : Zone) (s : State), ∃ e, EndsWith (.sounderCadence z) s e
    ∧ ((s.output z).pattern = .off → (e.output z).sounding = false)
    ∧ ((s.output z).pattern = .discharge → (e.output z).sounding = true)
    ∧ ((s.output z).pattern = .warn → ((e.output z).sounding = true ↔ (s.now - (s.output z).since) % 1000 < 500))
    ∧ ((s.output z).pattern = .hold → ((e.output z).sounding = true ↔ (s.now - (s.output z).since) % 2000 < 250))
    ∧ ((s.output z).pattern = .chime → ((e.output z).sounding = true ↔ (s.now - (s.output z).since) % 10000 < 200))
    ∧ (e.output z).release = (s.output z).release ∧ (e.output z).vent = (s.output z).vent ∧ SameBut [.lines] s e

/-! ### The roster -/

/-- The certainty of a zone (R10). A relocate naming a pair of locations outside R6 is refused and no entry moves; any relocate keeps every entry
in its zone (R6). A beam crossing adjusts the headcount, which stays at 0 and at 255 with COUNT_MISMATCH added (R7). -/
def Obligations.RosterClaimsKeepTheirBounds : Prop :=
  (∀ (s : State) (z : Zone),
    (s.certainty z = .empty ↔ s.roster z = [] ∧ (s.zone z).headcountValid = true ∧ (s.zone z).reasons = ReasonSet.empty)
    ∧ (s.certainty z = .occupied ↔ s.roster z ≠ [] ∧ (s.zone z).headcountValid = true ∧ (s.zone z).reasons = ReasonSet.empty)
    ∧ (s.certainty z = .uncertain ↔ (s.zone z).headcountValid = false ∨ (s.zone z).reasons ≠ ReasonSet.empty))
  ∧ (∀ x y : Location, allowedMove x y = true ↔
      (x = .admitted ∧ y = .vestibule) ∨ (x = .vestibule ∧ y = .inner) ∨ (x = .inner ∧ y = .vestibule))
  ∧ (∀ (z : Zone) (sel : Entry → Bool) (src dst : Location) (g : GroupChange) (k : Nat) (s : State),
      (allowedMove src dst = false → relocate z sel src dst g k s = s)
      ∧ (relocate z sel src dst g k s).pool.map (fun e => (e.number, e.zone)) = s.pool.map (fun e => (e.number, e.zone)))
  ∧ ∀ (z : Zone) (s : State), let h := (s.zone z).headcount
    (h < 255 → ((adjustHeadcount z 1 0 s).zone z).headcount = h + 1
      ∧ ((adjustHeadcount z 1 0 s).zone z).reasons = (s.zone z).reasons)
    ∧ (h = 255 → ((adjustHeadcount z 1 0 s).zone z).headcount = 255
      ∧ ((adjustHeadcount z 1 0 s).zone z).reasons = { (s.zone z).reasons with countMismatch := true })
    ∧ (0 < h → h ≤ 255 → ((adjustHeadcount z 0 1 s).zone z).headcount = h - 1
      ∧ ((adjustHeadcount z 0 1 s).zone z).reasons = (s.zone z).reasons)
    ∧ (h = 0 → ((adjustHeadcount z 0 1 s).zone z).headcount = 0
      ∧ ((adjustHeadcount z 0 1 s).zone z).reasons = { (s.zone z).reasons with countMismatch := true })

/-! ### Encoding and invariants -/

/-- Reading the payload of a well-formed request under its code gives the request again, every operand at every value (R208, R209). -/
def Obligations.ParseOfPayload : Prop :=
  ∀ r : Request, Request.wf r = true → parseRequest (Request.code r) (Request.payload r) = some r

/-- Every step keeps R128: no countdown runs while a hold reason stands. -/
def Obligations.CountdownSafeKept : Prop :=
  ∀ s t : State, CountdownSafe s → step s = .next t → CountdownSafe t

/-- Every step keeps R145: the release output is driven only in RELEASING, the vent output only in VENT. -/
def Obligations.OutputsSafeKept : Prop :=
  ∀ s t : State, OutputsSafe s → step s = .next t → OutputsSafe t

/-- Every step keeps R3: no two entries of the roster pool hold one slot. -/
def Obligations.PoolNumberedKept : Prop :=
  ∀ s t : State, PoolNumbered s → step s = .next t → PoolNumbered t

/-- R128, R145 and R3 hold at reset. -/
def Obligations.SafeAtReset : Prop := CountdownSafe State.reset ∧ OutputsSafe State.reset ∧ PoolNumbered State.reset
end

