-- ==== Sys2Proof/Decode.lean ====
section
/-! DEFINITION. The table gives no row any bits, so no word spells a command (log entry 8). The frames that carry requests are read in
Sys2Proof/Machine/Operands.lean. -/
namespace Sys2Proof

/-- The command a word spells by the table's bits: none. -/
def decodeTableWord (_nbits _w : Nat) : Option Instr := none

end Sys2Proof
end

