-- ==== Sys2Proof/Laws/State.lean ====
section
/-! SUPPORT. The updates of State: what each leaves of every field, one lemma a field, and what is read back after a write. -/
namespace Sys2Proof.Machine
set_option Elab.async false -- one proof at a time keeps the threads of a compile few

variable (s : State)

/-! ### Tables -/

@[simp] theorem nth_put_self {α : Type} {n : Nat} (v : Vector α n) (i : Fin n) (a : α) : nth (put v i a) i = a := by
  simp [nth, put]

@[simp] theorem nth_put_ne {α : Type} {n : Nat} (v : Vector α n) {i j : Fin n} (a : α) (h : j ≠ i) :
    nth (put v i a) j = nth v j := by
  have h' : i.val ≠ j.val := fun e => h (Fin.ext e.symm)
  simp [nth, put, Vector.getElem_set_ne, h']

theorem nth_put {α : Type} {n : Nat} (v : Vector α n) (i j : Fin n) (a : α) :
    nth (put v i a) j = if j = i then a else nth v j := by
  by_cases h : j = i
  · subst h; simp
  · simp [h]

@[simp] theorem nth_map {α β : Type} {n : Nat} (f : α → β) (v : Vector α n) (i : Fin n) : nth (v.map f) i = f (nth v i) := by
  simp [nth]

@[simp] theorem nth_replicate {α : Type} {n : Nat} (a : α) (i : Fin n) : nth (Vector.replicate n a) i = a := by
  simp [nth]

theorem mem_allZones (z : Zone) : z ∈ allZones := by revert z; decide

theorem mem_allSlots (a : SlotId) : a ∈ allSlots := by revert a; decide

theorem mem_allDoors (d : DoorId) : d ∈ allDoors := by revert d; decide

/-! ### One field after one update -/

@[simp] theorem setZone_pending (z : Zone) (r : ZoneRec) : (s.setZone z r).pending = s.pending := rfl
@[simp] theorem setZone_now (z : Zone) (r : ZoneRec) : (s.setZone z r).now = s.now := rfl
@[simp] theorem setZone_started (z : Zone) (r : ZoneRec) : (s.setZone z r).started = s.started := rfl
@[simp] theorem setZone_store (z : Zone) (r : ZoneRec) : (s.setZone z r).store = s.store := rfl
@[simp] theorem setZone_pool (z : Zone) (r : ZoneRec) : (s.setZone z r).pool = s.pool := rfl
@[simp] theorem setZone_doors (z : Zone) (r : ZoneRec) : (s.setZone z r).doors = s.doors := rfl
@[simp] theorem setZone_passage (z : Zone) (r : ZoneRec) : (s.setZone z r).passage = s.passage := rfl
@[simp] theorem setZone_hours (z : Zone) (r : ZoneRec) : (s.setZone z r).hours = s.hours := rfl
@[simp] theorem setZone_alarms (z : Zone) (r : ZoneRec) : (s.setZone z r).alarms = s.alarms := rfl
@[simp] theorem setZone_supp (z : Zone) (r : ZoneRec) : (s.setZone z r).supp = s.supp := rfl
@[simp] theorem setZone_sweep (z : Zone) (r : ZoneRec) : (s.setZone z r).sweep = s.sweep := rfl
@[simp] theorem setZone_loops (z : Zone) (r : ZoneRec) : (s.setZone z r).loops = s.loops := rfl
@[simp] theorem setZone_lines (z : Zone) (r : ZoneRec) : (s.setZone z r).lines = s.lines := rfl
@[simp] theorem setZone_ports (z : Zone) (r : ZoneRec) : (s.setZone z r).ports = s.ports := rfl
@[simp] theorem setZone_work (z : Zone) (r : ZoneRec) : (s.setZone z r).work = s.work := rfl

@[simp] theorem setDoor_pending (d : DoorId) (r : Door) : (s.setDoor d r).pending = s.pending := rfl
@[simp] theorem setDoor_now (d : DoorId) (r : Door) : (s.setDoor d r).now = s.now := rfl
@[simp] theorem setDoor_started (d : DoorId) (r : Door) : (s.setDoor d r).started = s.started := rfl
@[simp] theorem setDoor_store (d : DoorId) (r : Door) : (s.setDoor d r).store = s.store := rfl
@[simp] theorem setDoor_zones (d : DoorId) (r : Door) : (s.setDoor d r).zones = s.zones := rfl
@[simp] theorem setDoor_pool (d : DoorId) (r : Door) : (s.setDoor d r).pool = s.pool := rfl
@[simp] theorem setDoor_passage (d : DoorId) (r : Door) : (s.setDoor d r).passage = s.passage := rfl
@[simp] theorem setDoor_hours (d : DoorId) (r : Door) : (s.setDoor d r).hours = s.hours := rfl
@[simp] theorem setDoor_alarms (d : DoorId) (r : Door) : (s.setDoor d r).alarms = s.alarms := rfl
@[simp] theorem setDoor_supp (d : DoorId) (r : Door) : (s.setDoor d r).supp = s.supp := rfl
@[simp] theorem setDoor_sweep (d : DoorId) (r : Door) : (s.setDoor d r).sweep = s.sweep := rfl
@[simp] theorem setDoor_loops (d : DoorId) (r : Door) : (s.setDoor d r).loops = s.loops := rfl
@[simp] theorem setDoor_lines (d : DoorId) (r : Door) : (s.setDoor d r).lines = s.lines := rfl
@[simp] theorem setDoor_ports (d : DoorId) (r : Door) : (s.setDoor d r).ports = s.ports := rfl
@[simp] theorem setDoor_work (d : DoorId) (r : Door) : (s.setDoor d r).work = s.work := rfl

@[simp] theorem setUnderSweep_pending (z : Zone) (b : Bool) : (s.setUnderSweep z b).pending = s.pending := rfl
@[simp] theorem setUnderSweep_now (z : Zone) (b : Bool) : (s.setUnderSweep z b).now = s.now := rfl
@[simp] theorem setUnderSweep_started (z : Zone) (b : Bool) : (s.setUnderSweep z b).started = s.started := rfl
@[simp] theorem setUnderSweep_store (z : Zone) (b : Bool) : (s.setUnderSweep z b).store = s.store := rfl
@[simp] theorem setUnderSweep_zones (z : Zone) (b : Bool) : (s.setUnderSweep z b).zones = s.zones := rfl
@[simp] theorem setUnderSweep_pool (z : Zone) (b : Bool) : (s.setUnderSweep z b).pool = s.pool := rfl
@[simp] theorem setUnderSweep_passage (z : Zone) (b : Bool) : (s.setUnderSweep z b).passage = s.passage := rfl
@[simp] theorem setUnderSweep_hours (z : Zone) (b : Bool) : (s.setUnderSweep z b).hours = s.hours := rfl
@[simp] theorem setUnderSweep_alarms (z : Zone) (b : Bool) : (s.setUnderSweep z b).alarms = s.alarms := rfl
@[simp] theorem setUnderSweep_supp (z : Zone) (b : Bool) : (s.setUnderSweep z b).supp = s.supp := rfl
@[simp] theorem setUnderSweep_sweep (z : Zone) (b : Bool) : (s.setUnderSweep z b).sweep = s.sweep := rfl
@[simp] theorem setUnderSweep_loops (z : Zone) (b : Bool) : (s.setUnderSweep z b).loops = s.loops := rfl
@[simp] theorem setUnderSweep_lines (z : Zone) (b : Bool) : (s.setUnderSweep z b).lines = s.lines := rfl
@[simp] theorem setUnderSweep_ports (z : Zone) (b : Bool) : (s.setUnderSweep z b).ports = s.ports := rfl
@[simp] theorem setUnderSweep_work (z : Zone) (b : Bool) : (s.setUnderSweep z b).work = s.work := rfl

@[simp] theorem setRail_pending (k : Rail) (x : RailRec) : (s.setRail k x).pending = s.pending := by cases k <;> rfl
@[simp] theorem setRail_now (k : Rail) (x : RailRec) : (s.setRail k x).now = s.now := by cases k <;> rfl
@[simp] theorem setRail_started (k : Rail) (x : RailRec) : (s.setRail k x).started = s.started := by cases k <;> rfl
@[simp] theorem setRail_store (k : Rail) (x : RailRec) : (s.setRail k x).store = s.store := by cases k <;> rfl
@[simp] theorem setRail_zones (k : Rail) (x : RailRec) : (s.setRail k x).zones = s.zones := by cases k <;> rfl
@[simp] theorem setRail_pool (k : Rail) (x : RailRec) : (s.setRail k x).pool = s.pool := by cases k <;> rfl
@[simp] theorem setRail_passage (k : Rail) (x : RailRec) : (s.setRail k x).passage = s.passage := by cases k <;> rfl
@[simp] theorem setRail_hours (k : Rail) (x : RailRec) : (s.setRail k x).hours = s.hours := by cases k <;> rfl
@[simp] theorem setRail_alarms (k : Rail) (x : RailRec) : (s.setRail k x).alarms = s.alarms := by cases k <;> rfl
@[simp] theorem setRail_supp (k : Rail) (x : RailRec) : (s.setRail k x).supp = s.supp := by cases k <;> rfl
@[simp] theorem setRail_sweep (k : Rail) (x : RailRec) : (s.setRail k x).sweep = s.sweep := by cases k <;> rfl
@[simp] theorem setRail_loops (k : Rail) (x : RailRec) : (s.setRail k x).loops = s.loops := by cases k <;> rfl
@[simp] theorem setRail_lines (k : Rail) (x : RailRec) : (s.setRail k x).lines = s.lines := by cases k <;> rfl
@[simp] theorem setRail_ports (k : Rail) (x : RailRec) : (s.setRail k x).ports = s.ports := by cases k <;> rfl
@[simp] theorem setRail_work (k : Rail) (x : RailRec) : (s.setRail k x).work = s.work := by cases k <;> rfl

@[simp] theorem setZonePassage_pending (z : Zone) (x : ZonePassage) : (s.setZonePassage z x).pending = s.pending := rfl
@[simp] theorem setZonePassage_now (z : Zone) (x : ZonePassage) : (s.setZonePassage z x).now = s.now := rfl
@[simp] theorem setZonePassage_started (z : Zone) (x : ZonePassage) : (s.setZonePassage z x).started = s.started := rfl
@[simp] theorem setZonePassage_store (z : Zone) (x : ZonePassage) : (s.setZonePassage z x).store = s.store := rfl
@[simp] theorem setZonePassage_zones (z : Zone) (x : ZonePassage) : (s.setZonePassage z x).zones = s.zones := rfl
@[simp] theorem setZonePassage_pool (z : Zone) (x : ZonePassage) : (s.setZonePassage z x).pool = s.pool := rfl
@[simp] theorem setZonePassage_doors (z : Zone) (x : ZonePassage) : (s.setZonePassage z x).doors = s.doors := rfl
@[simp] theorem setZonePassage_hours (z : Zone) (x : ZonePassage) : (s.setZonePassage z x).hours = s.hours := rfl
@[simp] theorem setZonePassage_alarms (z : Zone) (x : ZonePassage) : (s.setZonePassage z x).alarms = s.alarms := rfl
@[simp] theorem setZonePassage_supp (z : Zone) (x : ZonePassage) : (s.setZonePassage z x).supp = s.supp := rfl
@[simp] theorem setZonePassage_sweep (z : Zone) (x : ZonePassage) : (s.setZonePassage z x).sweep = s.sweep := rfl
@[simp] theorem setZonePassage_loops (z : Zone) (x : ZonePassage) : (s.setZonePassage z x).loops = s.loops := rfl
@[simp] theorem setZonePassage_lines (z : Zone) (x : ZonePassage) : (s.setZonePassage z x).lines = s.lines := rfl
@[simp] theorem setZonePassage_ports (z : Zone) (x : ZonePassage) : (s.setZonePassage z x).ports = s.ports := rfl
@[simp] theorem setZonePassage_work (z : Zone) (x : ZonePassage) : (s.setZonePassage z x).work = s.work := rfl

@[simp] theorem setSuppRec_pending (z : Zone) (x : SuppRec) : (s.setSuppRec z x).pending = s.pending := rfl
@[simp] theorem setSuppRec_now (z : Zone) (x : SuppRec) : (s.setSuppRec z x).now = s.now := rfl
@[simp] theorem setSuppRec_started (z : Zone) (x : SuppRec) : (s.setSuppRec z x).started = s.started := rfl
@[simp] theorem setSuppRec_store (z : Zone) (x : SuppRec) : (s.setSuppRec z x).store = s.store := rfl
@[simp] theorem setSuppRec_zones (z : Zone) (x : SuppRec) : (s.setSuppRec z x).zones = s.zones := rfl
@[simp] theorem setSuppRec_pool (z : Zone) (x : SuppRec) : (s.setSuppRec z x).pool = s.pool := rfl
@[simp] theorem setSuppRec_doors (z : Zone) (x : SuppRec) : (s.setSuppRec z x).doors = s.doors := rfl
@[simp] theorem setSuppRec_passage (z : Zone) (x : SuppRec) : (s.setSuppRec z x).passage = s.passage := rfl
@[simp] theorem setSuppRec_hours (z : Zone) (x : SuppRec) : (s.setSuppRec z x).hours = s.hours := rfl
@[simp] theorem setSuppRec_alarms (z : Zone) (x : SuppRec) : (s.setSuppRec z x).alarms = s.alarms := rfl
@[simp] theorem setSuppRec_sweep (z : Zone) (x : SuppRec) : (s.setSuppRec z x).sweep = s.sweep := rfl
@[simp] theorem setSuppRec_loops (z : Zone) (x : SuppRec) : (s.setSuppRec z x).loops = s.loops := rfl
@[simp] theorem setSuppRec_lines (z : Zone) (x : SuppRec) : (s.setSuppRec z x).lines = s.lines := rfl
@[simp] theorem setSuppRec_ports (z : Zone) (x : SuppRec) : (s.setSuppRec z x).ports = s.ports := rfl
@[simp] theorem setSuppRec_work (z : Zone) (x : SuppRec) : (s.setSuppRec z x).work = s.work := rfl

@[simp] theorem setLoop_pending (l : LoopId) (x : Loop) : (s.setLoop l x).pending = s.pending := rfl
@[simp] theorem setLoop_now (l : LoopId) (x : Loop) : (s.setLoop l x).now = s.now := rfl
@[simp] theorem setLoop_started (l : LoopId) (x : Loop) : (s.setLoop l x).started = s.started := rfl
@[simp] theorem setLoop_store (l : LoopId) (x : Loop) : (s.setLoop l x).store = s.store := rfl
@[simp] theorem setLoop_zones (l : LoopId) (x : Loop) : (s.setLoop l x).zones = s.zones := rfl
@[simp] theorem setLoop_pool (l : LoopId) (x : Loop) : (s.setLoop l x).pool = s.pool := rfl
@[simp] theorem setLoop_doors (l : LoopId) (x : Loop) : (s.setLoop l x).doors = s.doors := rfl
@[simp] theorem setLoop_passage (l : LoopId) (x : Loop) : (s.setLoop l x).passage = s.passage := rfl
@[simp] theorem setLoop_hours (l : LoopId) (x : Loop) : (s.setLoop l x).hours = s.hours := rfl
@[simp] theorem setLoop_alarms (l : LoopId) (x : Loop) : (s.setLoop l x).alarms = s.alarms := rfl
@[simp] theorem setLoop_supp (l : LoopId) (x : Loop) : (s.setLoop l x).supp = s.supp := rfl
@[simp] theorem setLoop_sweep (l : LoopId) (x : Loop) : (s.setLoop l x).sweep = s.sweep := rfl
@[simp] theorem setLoop_lines (l : LoopId) (x : Loop) : (s.setLoop l x).lines = s.lines := rfl
@[simp] theorem setLoop_ports (l : LoopId) (x : Loop) : (s.setLoop l x).ports = s.ports := rfl
@[simp] theorem setLoop_work (l : LoopId) (x : Loop) : (s.setLoop l x).work = s.work := rfl

@[simp] theorem setSlot_pending (l : LoopId) (a : SlotId) (x : Slot) : (s.setSlot l a x).pending = s.pending := rfl
@[simp] theorem setSlot_now (l : LoopId) (a : SlotId) (x : Slot) : (s.setSlot l a x).now = s.now := rfl
@[simp] theorem setSlot_started (l : LoopId) (a : SlotId) (x : Slot) : (s.setSlot l a x).started = s.started := rfl
@[simp] theorem setSlot_store (l : LoopId) (a : SlotId) (x : Slot) : (s.setSlot l a x).store = s.store := rfl
@[simp] theorem setSlot_zones (l : LoopId) (a : SlotId) (x : Slot) : (s.setSlot l a x).zones = s.zones := rfl
@[simp] theorem setSlot_pool (l : LoopId) (a : SlotId) (x : Slot) : (s.setSlot l a x).pool = s.pool := rfl
@[simp] theorem setSlot_doors (l : LoopId) (a : SlotId) (x : Slot) : (s.setSlot l a x).doors = s.doors := rfl
@[simp] theorem setSlot_passage (l : LoopId) (a : SlotId) (x : Slot) : (s.setSlot l a x).passage = s.passage := rfl
@[simp] theorem setSlot_hours (l : LoopId) (a : SlotId) (x : Slot) : (s.setSlot l a x).hours = s.hours := rfl
@[simp] theorem setSlot_alarms (l : LoopId) (a : SlotId) (x : Slot) : (s.setSlot l a x).alarms = s.alarms := rfl
@[simp] theorem setSlot_supp (l : LoopId) (a : SlotId) (x : Slot) : (s.setSlot l a x).supp = s.supp := rfl
@[simp] theorem setSlot_sweep (l : LoopId) (a : SlotId) (x : Slot) : (s.setSlot l a x).sweep = s.sweep := rfl
@[simp] theorem setSlot_lines (l : LoopId) (a : SlotId) (x : Slot) : (s.setSlot l a x).lines = s.lines := rfl
@[simp] theorem setSlot_ports (l : LoopId) (a : SlotId) (x : Slot) : (s.setSlot l a x).ports = s.ports := rfl
@[simp] theorem setSlot_work (l : LoopId) (a : SlotId) (x : Slot) : (s.setSlot l a x).work = s.work := rfl

@[simp] theorem setLine_pending (n : LineId) (x : Line) : (s.setLine n x).pending = s.pending := rfl
@[simp] theorem setLine_now (n : LineId) (x : Line) : (s.setLine n x).now = s.now := rfl
@[simp] theorem setLine_started (n : LineId) (x : Line) : (s.setLine n x).started = s.started := rfl
@[simp] theorem setLine_store (n : LineId) (x : Line) : (s.setLine n x).store = s.store := rfl
@[simp] theorem setLine_zones (n : LineId) (x : Line) : (s.setLine n x).zones = s.zones := rfl
@[simp] theorem setLine_pool (n : LineId) (x : Line) : (s.setLine n x).pool = s.pool := rfl
@[simp] theorem setLine_doors (n : LineId) (x : Line) : (s.setLine n x).doors = s.doors := rfl
@[simp] theorem setLine_passage (n : LineId) (x : Line) : (s.setLine n x).passage = s.passage := rfl
@[simp] theorem setLine_hours (n : LineId) (x : Line) : (s.setLine n x).hours = s.hours := rfl
@[simp] theorem setLine_alarms (n : LineId) (x : Line) : (s.setLine n x).alarms = s.alarms := rfl
@[simp] theorem setLine_supp (n : LineId) (x : Line) : (s.setLine n x).supp = s.supp := rfl
@[simp] theorem setLine_sweep (n : LineId) (x : Line) : (s.setLine n x).sweep = s.sweep := rfl
@[simp] theorem setLine_loops (n : LineId) (x : Line) : (s.setLine n x).loops = s.loops := rfl
@[simp] theorem setLine_ports (n : LineId) (x : Line) : (s.setLine n x).ports = s.ports := rfl
@[simp] theorem setLine_work (n : LineId) (x : Line) : (s.setLine n x).work = s.work := rfl

@[simp] theorem setOutput_pending (z : Zone) (x : Output) : (s.setOutput z x).pending = s.pending := rfl
@[simp] theorem setOutput_now (z : Zone) (x : Output) : (s.setOutput z x).now = s.now := rfl
@[simp] theorem setOutput_started (z : Zone) (x : Output) : (s.setOutput z x).started = s.started := rfl
@[simp] theorem setOutput_store (z : Zone) (x : Output) : (s.setOutput z x).store = s.store := rfl
@[simp] theorem setOutput_zones (z : Zone) (x : Output) : (s.setOutput z x).zones = s.zones := rfl
@[simp] theorem setOutput_pool (z : Zone) (x : Output) : (s.setOutput z x).pool = s.pool := rfl
@[simp] theorem setOutput_doors (z : Zone) (x : Output) : (s.setOutput z x).doors = s.doors := rfl
@[simp] theorem setOutput_passage (z : Zone) (x : Output) : (s.setOutput z x).passage = s.passage := rfl
@[simp] theorem setOutput_hours (z : Zone) (x : Output) : (s.setOutput z x).hours = s.hours := rfl
@[simp] theorem setOutput_alarms (z : Zone) (x : Output) : (s.setOutput z x).alarms = s.alarms := rfl
@[simp] theorem setOutput_supp (z : Zone) (x : Output) : (s.setOutput z x).supp = s.supp := rfl
@[simp] theorem setOutput_sweep (z : Zone) (x : Output) : (s.setOutput z x).sweep = s.sweep := rfl
@[simp] theorem setOutput_loops (z : Zone) (x : Output) : (s.setOutput z x).loops = s.loops := rfl
@[simp] theorem setOutput_ports (z : Zone) (x : Output) : (s.setOutput z x).ports = s.ports := rfl
@[simp] theorem setOutput_work (z : Zone) (x : Output) : (s.setOutput z x).work = s.work := rfl

@[simp] theorem setLatch_pending (z : Zone) (b : Bool) : (s.setLatch z b).pending = s.pending := rfl
@[simp] theorem setLatch_now (z : Zone) (b : Bool) : (s.setLatch z b).now = s.now := rfl
@[simp] theorem setLatch_started (z : Zone) (b : Bool) : (s.setLatch z b).started = s.started := rfl
@[simp] theorem setLatch_store (z : Zone) (b : Bool) : (s.setLatch z b).store = s.store := rfl
@[simp] theorem setLatch_zones (z : Zone) (b : Bool) : (s.setLatch z b).zones = s.zones := rfl
@[simp] theorem setLatch_pool (z : Zone) (b : Bool) : (s.setLatch z b).pool = s.pool := rfl
@[simp] theorem setLatch_doors (z : Zone) (b : Bool) : (s.setLatch z b).doors = s.doors := rfl
@[simp] theorem setLatch_passage (z : Zone) (b : Bool) : (s.setLatch z b).passage = s.passage := rfl
@[simp] theorem setLatch_hours (z : Zone) (b : Bool) : (s.setLatch z b).hours = s.hours := rfl
@[simp] theorem setLatch_supp (z : Zone) (b : Bool) : (s.setLatch z b).supp = s.supp := rfl
@[simp] theorem setLatch_sweep (z : Zone) (b : Bool) : (s.setLatch z b).sweep = s.sweep := rfl
@[simp] theorem setLatch_loops (z : Zone) (b : Bool) : (s.setLatch z b).loops = s.loops := rfl
@[simp] theorem setLatch_lines (z : Zone) (b : Bool) : (s.setLatch z b).lines = s.lines := rfl
@[simp] theorem setLatch_ports (z : Zone) (b : Bool) : (s.setLatch z b).ports = s.ports := rfl
@[simp] theorem setLatch_work (z : Zone) (b : Bool) : (s.setLatch z b).work = s.work := rfl

@[simp] theorem setWarning_pending (z : Zone) (w : Option Nat) : (s.setWarning z w).pending = s.pending := rfl
@[simp] theorem setWarning_now (z : Zone) (w : Option Nat) : (s.setWarning z w).now = s.now := rfl
@[simp] theorem setWarning_started (z : Zone) (w : Option Nat) : (s.setWarning z w).started = s.started := rfl
@[simp] theorem setWarning_store (z : Zone) (w : Option Nat) : (s.setWarning z w).store = s.store := rfl
@[simp] theorem setWarning_zones (z : Zone) (w : Option Nat) : (s.setWarning z w).zones = s.zones := rfl
@[simp] theorem setWarning_pool (z : Zone) (w : Option Nat) : (s.setWarning z w).pool = s.pool := rfl
@[simp] theorem setWarning_doors (z : Zone) (w : Option Nat) : (s.setWarning z w).doors = s.doors := rfl
@[simp] theorem setWarning_passage (z : Zone) (w : Option Nat) : (s.setWarning z w).passage = s.passage := rfl
@[simp] theorem setWarning_alarms (z : Zone) (w : Option Nat) : (s.setWarning z w).alarms = s.alarms := rfl
@[simp] theorem setWarning_supp (z : Zone) (w : Option Nat) : (s.setWarning z w).supp = s.supp := rfl
@[simp] theorem setWarning_sweep (z : Zone) (w : Option Nat) : (s.setWarning z w).sweep = s.sweep := rfl
@[simp] theorem setWarning_loops (z : Zone) (w : Option Nat) : (s.setWarning z w).loops = s.loops := rfl
@[simp] theorem setWarning_lines (z : Zone) (w : Option Nat) : (s.setWarning z w).lines = s.lines := rfl
@[simp] theorem setWarning_ports (z : Zone) (w : Option Nat) : (s.setWarning z w).ports = s.ports := rfl
@[simp] theorem setWarning_work (z : Zone) (w : Option Nat) : (s.setWarning z w).work = s.work := rfl

@[simp] theorem setPort_pending (p : PortId) (x : Port) : (s.setPort p x).pending = s.pending := by cases p <;> rfl
@[simp] theorem setPort_now (p : PortId) (x : Port) : (s.setPort p x).now = s.now := by cases p <;> rfl
@[simp] theorem setPort_started (p : PortId) (x : Port) : (s.setPort p x).started = s.started := by cases p <;> rfl
@[simp] theorem setPort_store (p : PortId) (x : Port) : (s.setPort p x).store = s.store := by cases p <;> rfl
@[simp] theorem setPort_zones (p : PortId) (x : Port) : (s.setPort p x).zones = s.zones := by cases p <;> rfl
@[simp] theorem setPort_pool (p : PortId) (x : Port) : (s.setPort p x).pool = s.pool := by cases p <;> rfl
@[simp] theorem setPort_doors (p : PortId) (x : Port) : (s.setPort p x).doors = s.doors := by cases p <;> rfl
@[simp] theorem setPort_passage (p : PortId) (x : Port) : (s.setPort p x).passage = s.passage := by cases p <;> rfl
@[simp] theorem setPort_hours (p : PortId) (x : Port) : (s.setPort p x).hours = s.hours := by cases p <;> rfl
@[simp] theorem setPort_alarms (p : PortId) (x : Port) : (s.setPort p x).alarms = s.alarms := by cases p <;> rfl
@[simp] theorem setPort_supp (p : PortId) (x : Port) : (s.setPort p x).supp = s.supp := by cases p <;> rfl
@[simp] theorem setPort_sweep (p : PortId) (x : Port) : (s.setPort p x).sweep = s.sweep := by cases p <;> rfl
@[simp] theorem setPort_loops (p : PortId) (x : Port) : (s.setPort p x).loops = s.loops := by cases p <;> rfl
@[simp] theorem setPort_lines (p : PortId) (x : Port) : (s.setPort p x).lines = s.lines := by cases p <;> rfl
@[simp] theorem setPort_work (p : PortId) (x : Port) : (s.setPort p x).work = s.work := by cases p <;> rfl

@[simp] theorem handOn_pending (h : HandOn) : (s.handOn h).pending = s.pending := rfl
@[simp] theorem handOn_now (h : HandOn) : (s.handOn h).now = s.now := rfl
@[simp] theorem handOn_started (h : HandOn) : (s.handOn h).started = s.started := rfl
@[simp] theorem handOn_store (h : HandOn) : (s.handOn h).store = s.store := rfl
@[simp] theorem handOn_zones (h : HandOn) : (s.handOn h).zones = s.zones := rfl
@[simp] theorem handOn_pool (h : HandOn) : (s.handOn h).pool = s.pool := rfl
@[simp] theorem handOn_doors (h : HandOn) : (s.handOn h).doors = s.doors := rfl
@[simp] theorem handOn_passage (h : HandOn) : (s.handOn h).passage = s.passage := rfl
@[simp] theorem handOn_hours (h : HandOn) : (s.handOn h).hours = s.hours := rfl
@[simp] theorem handOn_alarms (h : HandOn) : (s.handOn h).alarms = s.alarms := rfl
@[simp] theorem handOn_supp (h : HandOn) : (s.handOn h).supp = s.supp := rfl
@[simp] theorem handOn_sweep (h : HandOn) : (s.handOn h).sweep = s.sweep := rfl
@[simp] theorem handOn_loops (h : HandOn) : (s.handOn h).loops = s.loops := rfl
@[simp] theorem handOn_lines (h : HandOn) : (s.handOn h).lines = s.lines := rfl
@[simp] theorem handOn_ports (h : HandOn) : (s.handOn h).ports = s.ports := rfl

@[simp] theorem handOnFirst_pending (h : HandOn) : (s.handOnFirst h).pending = s.pending := rfl
@[simp] theorem handOnFirst_now (h : HandOn) : (s.handOnFirst h).now = s.now := rfl
@[simp] theorem handOnFirst_started (h : HandOn) : (s.handOnFirst h).started = s.started := rfl
@[simp] theorem handOnFirst_store (h : HandOn) : (s.handOnFirst h).store = s.store := rfl
@[simp] theorem handOnFirst_zones (h : HandOn) : (s.handOnFirst h).zones = s.zones := rfl
@[simp] theorem handOnFirst_pool (h : HandOn) : (s.handOnFirst h).pool = s.pool := rfl
@[simp] theorem handOnFirst_doors (h : HandOn) : (s.handOnFirst h).doors = s.doors := rfl
@[simp] theorem handOnFirst_passage (h : HandOn) : (s.handOnFirst h).passage = s.passage := rfl
@[simp] theorem handOnFirst_hours (h : HandOn) : (s.handOnFirst h).hours = s.hours := rfl
@[simp] theorem handOnFirst_alarms (h : HandOn) : (s.handOnFirst h).alarms = s.alarms := rfl
@[simp] theorem handOnFirst_supp (h : HandOn) : (s.handOnFirst h).supp = s.supp := rfl
@[simp] theorem handOnFirst_sweep (h : HandOn) : (s.handOnFirst h).sweep = s.sweep := rfl
@[simp] theorem handOnFirst_loops (h : HandOn) : (s.handOnFirst h).loops = s.loops := rfl
@[simp] theorem handOnFirst_lines (h : HandOn) : (s.handOnFirst h).lines = s.lines := rfl
@[simp] theorem handOnFirst_ports (h : HandOn) : (s.handOnFirst h).ports = s.ports := rfl

/-! ### Reading back -/

@[simp] theorem zone_setZone (z : Zone) (x : ZoneRec) : (s.setZone z x).zone z = x := nth_put_self _ _ _
theorem zone_setZone_ne {z y : Zone} (x : ZoneRec) (h : y ≠ z) : (s.setZone z x).zone y = s.zone y :=
  nth_put_ne _ _ h
@[simp] theorem door_setDoor (d : DoorId) (x : Door) : (s.setDoor d x).door d = x := nth_put_self _ _ _
theorem door_setDoor_ne {d y : DoorId} (x : Door) (h : y ≠ d) : (s.setDoor d x).door y = s.door y :=
  nth_put_ne _ _ h
@[simp] theorem underSweep_setUnderSweep (z : Zone) (x : Bool) : (s.setUnderSweep z x).underSweep z = x := nth_put_self _ _ _
theorem underSweep_setUnderSweep_ne {z y : Zone} (x : Bool) (h : y ≠ z) : (s.setUnderSweep z x).underSweep y = s.underSweep y :=
  nth_put_ne _ _ h
@[simp] theorem zonePassage_setZonePassage (z : Zone) (x : ZonePassage) : (s.setZonePassage z x).zonePassage z = x := nth_put_self _ _ _
theorem zonePassage_setZonePassage_ne {z y : Zone} (x : ZonePassage) (h : y ≠ z) : (s.setZonePassage z x).zonePassage y = s.zonePassage y :=
  nth_put_ne _ _ h
@[simp] theorem suppRec_setSuppRec (z : Zone) (x : SuppRec) : (s.setSuppRec z x).suppRec z = x := nth_put_self _ _ _
theorem suppRec_setSuppRec_ne {z y : Zone} (x : SuppRec) (h : y ≠ z) : (s.setSuppRec z x).suppRec y = s.suppRec y :=
  nth_put_ne _ _ h
@[simp] theorem loop_setLoop (l : LoopId) (x : Loop) : (s.setLoop l x).loop l = x := nth_put_self _ _ _
theorem loop_setLoop_ne {l y : LoopId} (x : Loop) (h : y ≠ l) : (s.setLoop l x).loop y = s.loop y :=
  nth_put_ne _ _ h
@[simp] theorem line_setLine (n : LineId) (x : Line) : (s.setLine n x).line n = x := nth_put_self _ _ _
theorem line_setLine_ne {n y : LineId} (x : Line) (h : y ≠ n) : (s.setLine n x).line y = s.line y :=
  nth_put_ne _ _ h
@[simp] theorem output_setOutput (z : Zone) (x : Output) : (s.setOutput z x).output z = x := nth_put_self _ _ _
theorem output_setOutput_ne {z y : Zone} (x : Output) (h : y ≠ z) : (s.setOutput z x).output y = s.output y :=
  nth_put_ne _ _ h
@[simp] theorem latch_setLatch (z : Zone) (x : Bool) : (s.setLatch z x).latch z = x := nth_put_self _ _ _
theorem latch_setLatch_ne {z y : Zone} (x : Bool) (h : y ≠ z) : (s.setLatch z x).latch y = s.latch y :=
  nth_put_ne _ _ h
@[simp] theorem warning_setWarning (z : Zone) (x : Option Nat) : (s.setWarning z x).warning z = x := nth_put_self _ _ _
theorem warning_setWarning_ne {z y : Zone} (x : Option Nat) (h : y ≠ z) : (s.setWarning z x).warning y = s.warning y :=
  nth_put_ne _ _ h
@[simp] theorem rail_setRail (k : Rail) (x : RailRec) : (s.setRail k x).rail k = x := by cases k <;> rfl
theorem rail_setRail_ne {k j : Rail} (x : RailRec) (h : j ≠ k) : (s.setRail k x).rail j = s.rail j := by
  cases k <;> cases j <;> first | rfl | exact absurd rfl h
@[simp] theorem port_setPort (p : PortId) (x : Port) : (s.setPort p x).port p = x := by cases p <;> rfl
theorem port_setPort_ne {p q : PortId} (x : Port) (h : q ≠ p) : (s.setPort p x).port q = s.port q := by
  cases p <;> cases q <;> first | rfl | exact absurd rfl h
@[simp] theorem slot_setSlot (l : LoopId) (a : SlotId) (x : Slot) : (s.setSlot l a x).slot l a = x := by
  simp [State.slot, State.setSlot]
theorem slot_setSlot_ne {l : LoopId} {a b : SlotId} (x : Slot) (h : b ≠ a) : (s.setSlot l a x).slot l b = s.slot l b := by
  simp [State.slot, State.setSlot, h]

@[simp] theorem door_setRail (k : Rail) (x : RailRec) (d : DoorId) : (s.setRail k x).door d = s.door d := by cases k <;> rfl
@[simp] theorem underSweep_setRail (k : Rail) (x : RailRec) (z : Zone) : (s.setRail k x).underSweep z = s.underSweep z := by
  cases k <;> rfl
@[simp] theorem rail_setDoor (d : DoorId) (x : Door) (k : Rail) : (s.setDoor d x).rail k = s.rail k := by cases k <;> rfl
@[simp] theorem underSweep_setDoor (d : DoorId) (x : Door) (z : Zone) : (s.setDoor d x).underSweep z = s.underSweep z := rfl
@[simp] theorem rail_setUnderSweep (z : Zone) (b : Bool) (k : Rail) : (s.setUnderSweep z b).rail k = s.rail k := by
  cases k <;> rfl
@[simp] theorem door_setUnderSweep (z : Zone) (b : Bool) (d : DoorId) : (s.setUnderSweep z b).door d = s.door d := rfl
@[simp] theorem line_setOutput (z : Zone) (x : Output) (n : LineId) : (s.setOutput z x).line n = s.line n := rfl
@[simp] theorem output_setLine (n : LineId) (x : Line) (z : Zone) : (s.setLine n x).output z = s.output z := rfl

/-! ### Reading through a field that is the same -/

variable {s} {t : State}

theorem zone_congr (h : t.zones = s.zones) (z : Zone) : t.zone z = s.zone z := by simp [State.zone, h]
theorem door_congr (h : t.doors = s.doors) (d : DoorId) : t.door d = s.door d := by simp [State.door, h]
theorem underSweep_congr (h : t.doors = s.doors) (z : Zone) : t.underSweep z = s.underSweep z := by simp [State.underSweep, h]
theorem rail_congr (h : t.doors = s.doors) (k : Rail) : t.rail k = s.rail k := by cases k <;> simp [State.rail, h]
theorem zonePassage_congr (h : t.passage = s.passage) (z : Zone) : t.zonePassage z = s.zonePassage z := by simp [State.zonePassage, h]
theorem suppRec_congr (h : t.supp = s.supp) (z : Zone) : t.suppRec z = s.suppRec z := by simp [State.suppRec, h]
theorem loop_congr (h : t.loops = s.loops) (l : LoopId) : t.loop l = s.loop l := by simp [State.loop, h]
theorem line_congr (h : t.lines = s.lines) (n : LineId) : t.line n = s.line n := by simp [State.line, h]
theorem output_congr (h : t.lines = s.lines) (z : Zone) : t.output z = s.output z := by simp [State.output, h]
theorem latch_congr (h : t.alarms = s.alarms) (z : Zone) : t.latch z = s.latch z := by simp [State.latch, h]
theorem warning_congr (h : t.hours = s.hours) (z : Zone) : t.warning z = s.warning z := by simp [State.warning, h]
theorem port_congr (h : t.ports = s.ports) (p : PortId) : t.port p = s.port p := by cases p <;> simp [State.port, h]
theorem storedZone_congr (h : t.store = s.store) (z : Zone) : t.storedZone z = s.storedZone z := by simp [State.storedZone, h]
theorem cfg_congr (h : t.store = s.store) (z : Zone) : t.cfg z = s.cfg z := by simp [State.cfg, State.storedZone, h]
theorem roster_congr (h : t.pool = s.pool) (z : Zone) : t.roster z = s.roster z := by simp [State.roster, h]
theorem distress_congr (h : t.alarms = s.alarms) (z : Zone) : t.distress z = s.distress z := by
  unfold State.distress State.latch; rw [h]
theorem abortActive_congr (h : t.lines = s.lines) (z : Zone) : t.abortActive z = s.abortActive z := by simp [State.abortActive, State.line, h]
theorem inEvacuation_congr (h : t.supp = s.supp) (z : Zone) : t.inEvacuation z = s.inEvacuation z := by simp [State.inEvacuation, State.suppRec, h]
theorem lockdownFlag_congr (h : t.store = s.store) (z : Zone) : t.lockdownFlag z = s.lockdownFlag z := by simp [State.lockdownFlag, State.control, h]
theorem excludedFlag_congr (h : t.store = s.store) (z : Zone) : t.excludedFlag z = s.excludedFlag z := by simp [State.excludedFlag, State.control, h]
theorem isolationFlag_congr (h : t.store = s.store) (z : Zone) : t.isolationFlag z = s.isolationFlag z := by simp [State.isolationFlag, State.control, h]
theorem certainty_congr (hz : t.zones = s.zones) (hp : t.pool = s.pool) (z : Zone) : t.certainty z = s.certainty z := by
  simp [State.certainty, zone_congr hz, roster_congr hp]
theorem uptime_congr (h : t.now = s.now) : t.uptime = s.uptime := by simp [State.uptime, h]
theorem reached_congr (h : t.now = s.now) (x : Option Nat) : t.reached x = s.reached x := by cases x <;> simp [State.reached, h]
theorem partCfg_congr (h : t.store = s.store) : t.partCfg = s.partCfg := by simp [State.partCfg, h]
theorem control_congr (h : t.store = s.store) : t.control = s.control := by simp [State.control, h]

end Sys2Proof.Machine
end

