-- ==== Sys2Proof/Laws/Frame.lean ====
section
/-! SUPPORT. Frames: the calculus of `SameBut`, and one lemma a shared operation that says which parts of the state it can change. -/
namespace Sys2Proof.Machine
set_option Elab.async false -- one proof at a time keeps the threads of a compile few

/-! ### The calculus -/

theorem SameBut.refl (l : List Part) (s : State) : SameBut l s s := fun x _ => by cases x <;> rfl

theorem Part.Same.trans {s t u : State} {x : Part} (h : Part.Same s t x) (k : Part.Same t u x) : Part.Same s u x := by
  cases x <;> exact Eq.trans k h

theorem SameBut.trans {l : List Part} {s t u : State} (h : SameBut l s t) (k : SameBut l t u) : SameBut l s u :=
  fun x hx => (h x hx).trans (k x hx)

theorem SameBut.mono {l m : List Part} {s t : State} (h : SameBut l s t) (hs : l ⊆ m) : SameBut m s t :=
  fun x hx => h x fun hl => hx (hs hl)

/-- A frame followed by an operation whose frame is known. -/
theorem SameBut.push {l m : List Part} {s t u : State} (h : SameBut m s t) (k : SameBut l t u) (hs : l ⊆ m) : SameBut m s u :=
  h.trans (k.mono hs)

/-- The work of the step is no part of the state. -/
theorem SameBut.of_work (l : List Part) (s : State) (w : Work) : SameBut l s { s with work := w } :=
  fun x _ => by cases x <;> rfl

section
variable {l : List Part} {s t : State} (h : SameBut l s t)
include h

theorem SameBut.pending (hn : Part.pending ∉ l := by decide) : t.pending = s.pending := h _ hn
theorem SameBut.now (hn : Part.now ∉ l := by decide) : t.now = s.now := h _ hn
theorem SameBut.started (hn : Part.started ∉ l := by decide) : t.started = s.started := h _ hn
theorem SameBut.store (hn : Part.store ∉ l := by decide) : t.store = s.store := h _ hn
theorem SameBut.zones (hn : Part.zones ∉ l := by decide) : t.zones = s.zones := h _ hn
theorem SameBut.pool (hn : Part.pool ∉ l := by decide) : t.pool = s.pool := h _ hn
theorem SameBut.doors (hn : Part.doors ∉ l := by decide) : t.doors = s.doors := h _ hn
theorem SameBut.passage (hn : Part.passage ∉ l := by decide) : t.passage = s.passage := h _ hn
theorem SameBut.hours (hn : Part.hours ∉ l := by decide) : t.hours = s.hours := h _ hn
theorem SameBut.alarms (hn : Part.alarms ∉ l := by decide) : t.alarms = s.alarms := h _ hn
theorem SameBut.supp (hn : Part.supp ∉ l := by decide) : t.supp = s.supp := h _ hn
theorem SameBut.sweep (hn : Part.sweep ∉ l := by decide) : t.sweep = s.sweep := h _ hn
theorem SameBut.loops (hn : Part.loops ∉ l := by decide) : t.loops = s.loops := h _ hn
theorem SameBut.lines (hn : Part.lines ∉ l := by decide) : t.lines = s.lines := h _ hn
theorem SameBut.ports (hn : Part.ports ∉ l := by decide) : t.ports = s.ports := h _ hn
end

/-- A fold of operations that share a frame. -/
theorem foldl_frame {α : Type} {l : List Part} (f : State → α → State) (hf : ∀ s a, SameBut l s (f s a)) (xs : List α) (s : State) :
    SameBut l s (xs.foldl f s) := by
  induction xs generalizing s with
  | nil => exact .refl _ _
  | cons a xs ih => exact (hf s a).trans (ih (f s a))

/-! ### Ports and hand-ons -/

variable (s : State)

theorem setPort_frame (p : PortId) (x : Port) : SameBut [.ports] s (s.setPort p x) := fun y hy => by
  cases y <;> first | exact absurd (by decide) hy | (cases p <;> rfl)

theorem placeNotice_frame (p : PortId) (n : Notice) : SameBut [.ports] s (s.placeNotice p n) := setPort_frame _ _ _

theorem notifyPorts_frame (ports : List PortId) (n : Notice) : SameBut [.ports] s (s.notifyPorts ports n) :=
  foldl_frame _ (fun t p => placeNotice_frame t p n) ports s

theorem notify_frame (k : NoticeKind) (z : Option Zone) (x : Subject) (d : List Byte) : SameBut [.ports] s (s.notify k z x d) :=
  notifyPorts_frame _ _ _

theorem dueNotice_frame (n : DueNotice) : SameBut [] s (s.dueNotice n) := .of_work _ _ _
theorem handOn_frame (h : HandOn) : SameBut [] s (s.handOn h) := .of_work _ _ _
theorem handOnFirst_frame (h : HandOn) : SameBut [] s (s.handOnFirst h) := .of_work _ _ _

/-! ### The table updates -/

theorem setZone_frame (z : Zone) (r : ZoneRec) : SameBut [.zones] s (s.setZone z r) := fun y hy => by
  cases y <;> first | exact absurd (by decide) hy | rfl
theorem setDoor_frame (d : DoorId) (r : Door) : SameBut [.doors] s (s.setDoor d r) := fun y hy => by
  cases y <;> first | exact absurd (by decide) hy | rfl
theorem setUnderSweep_frame (z : Zone) (b : Bool) : SameBut [.doors] s (s.setUnderSweep z b) := fun y hy => by
  cases y <;> first | exact absurd (by decide) hy | rfl
theorem setRail_frame (k : Rail) (x : RailRec) : SameBut [.doors] s (s.setRail k x) := fun y hy => by
  cases y <;> first | exact absurd (by decide) hy | (cases k <;> rfl)
theorem setZonePassage_frame (z : Zone) (x : ZonePassage) : SameBut [.passage] s (s.setZonePassage z x) := fun y hy => by
  cases y <;> first | exact absurd (by decide) hy | rfl
theorem setSuppRec_frame (z : Zone) (x : SuppRec) : SameBut [.supp] s (s.setSuppRec z x) := fun y hy => by
  cases y <;> first | exact absurd (by decide) hy | rfl
theorem setLoop_frame (l : LoopId) (x : Loop) : SameBut [.loops] s (s.setLoop l x) := fun y hy => by
  cases y <;> first | exact absurd (by decide) hy | rfl
theorem setSlot_frame (l : LoopId) (a : SlotId) (x : Slot) : SameBut [.loops] s (s.setSlot l a x) := setLoop_frame _ _ _
theorem setLine_frame (n : LineId) (x : Line) : SameBut [.lines] s (s.setLine n x) := fun y hy => by
  cases y <;> first | exact absurd (by decide) hy | rfl
theorem setOutput_frame (z : Zone) (x : Output) : SameBut [.lines] s (s.setOutput z x) := fun y hy => by
  cases y <;> first | exact absurd (by decide) hy | rfl
theorem setLatch_frame (z : Zone) (b : Bool) : SameBut [.alarms] s (s.setLatch z b) := fun y hy => by
  cases y <;> first | exact absurd (by decide) hy | rfl
theorem setWarning_frame (z : Zone) (w : Option Nat) : SameBut [.hours] s (s.setWarning z w) := fun y hy => by
  cases y <;> first | exact absurd (by decide) hy | rfl
theorem setCache_frame (c : List CacheEntry) : SameBut [.passage] s (s.setCache c) := fun y hy => by
  cases y <;> first | exact absurd (by decide) hy | rfl

/-! ### Updates written as records -/

theorem now_frame (x : Nat) : SameBut [.now] s { s with now := x } := fun y hy => by
  cases y <;> first | exact absurd (by decide) hy | rfl
theorem store_frame (x : Store) : SameBut [.store] s { s with store := x } := fun y hy => by
  cases y <;> first | exact absurd (by decide) hy | rfl
theorem pool_frame (x : List Entry) : SameBut [.pool] s { s with pool := x } := fun y hy => by
  cases y <;> first | exact absurd (by decide) hy | rfl
theorem passage_frame (x : PassageUnit) : SameBut [.passage] s { s with passage := x } := fun y hy => by
  cases y <;> first | exact absurd (by decide) hy | rfl
theorem hours_frame (x : HoursUnit) : SameBut [.hours] s { s with hours := x } := fun y hy => by
  cases y <;> first | exact absurd (by decide) hy | rfl
theorem alarms_frame (x : AlarmUnit) : SameBut [.alarms] s { s with alarms := x } := fun y hy => by
  cases y <;> first | exact absurd (by decide) hy | rfl
theorem supp_frame (x : SuppUnit) : SameBut [.supp] s { s with supp := x } := fun y hy => by
  cases y <;> first | exact absurd (by decide) hy | rfl
theorem sweep_frame (x : SweepUnit) : SameBut [.sweep] s { s with sweep := x } := fun y hy => by
  cases y <;> first | exact absurd (by decide) hy | rfl
theorem lines_frame (x : LineUnit) : SameBut [.lines] s { s with lines := x } := fun y hy => by
  cases y <;> first | exact absurd (by decide) hy | rfl

/-! ### Loop commands -/

theorem giveCmd_frame (l : LoopId) (a : SlotId) (b : CmdBody) : SameBut [.loops] s (s.giveCmd l a b) := by
  unfold State.giveCmd; split
  · exact setLoop_frame _ _ _
  · exact .refl _ _

theorem giveDoorCmd_frame (d : DoorId) (b : CmdBody) : SameBut [.loops] s (s.giveDoorCmd d b) := giveCmd_frame _ _ _ _

theorem indicate_frame (z : Zone) (x : Side) (p : Pattern) : SameBut [.loops] s (s.indicate z x p) := by
  unfold State.indicate; split
  · exact .refl _ _
  · exact giveDoorCmd_frame _ _ _

/-! ### Alarms -/

theorem touchAlarms_frame : SameBut [.alarms] s (touchAlarms s) := by
  unfold touchAlarms; split
  · exact .refl _ _
  · exact fun y hy => by cases y <;> first | exact absurd (by decide) hy | rfl

theorem noticeRaised_frame (r : AlarmRec) (b : Bool) : SameBut [] s (noticeRaised r b s) := dueNotice_frame _ _
theorem noticeChanged_frame (r : AlarmRec) (c : AlarmChange) : SameBut [] s (noticeChanged r c s) := dueNotice_frame _ _
theorem noticeLatchCleared_frame (z : Zone) : SameBut [] s (noticeLatchCleared z s) := dueNotice_frame _ _
theorem noticeDisplaced_frame (r b : AlarmRec) : SameBut [] s (noticeDisplaced r b s) := dueNotice_frame _ _

theorem latchDistress_frame (k : AlarmKind) (z : Option Zone) : SameBut [.alarms] s (latchDistress k z s) := by
  unfold latchDistress; split
  · split
    · exact setLatch_frame _ _ _
    · exact .refl _ _
  · exact .refl _ _

theorem makeAlarm_frame (r : AlarmRec) : SameBut [.alarms] s (makeAlarm r s) :=
  (((SameBut.refl _ s).push (alarms_frame s _) (by decide)).push (touchAlarms_frame _) (by decide)).push
    (noticeRaised_frame _ _ _) (by decide)

theorem raiseFull_frame (r : AlarmRec) : SameBut [.alarms] s (raiseFull r s) := by
  unfold raiseFull; split
  · exact (((SameBut.refl _ s).push (alarms_frame s _) (by decide)).push (touchAlarms_frame _) (by decide)).push
      (noticeChanged_frame _ _ _) (by decide) |>.push (makeAlarm_frame _ _) (by decide)
  · split
    · rename_i last _
      split
      · refine .push (.push ?_ (noticeDisplaced_frame _ _ _) (by decide)) (makeAlarm_frame _ _) (by decide)
        have h : SameBut [.alarms] s (touchAlarms { s with alarms.queue := eraseAlarm last s.alarms.queue }) :=
          ((SameBut.refl _ s).push (alarms_frame s _) (by decide)).push (touchAlarms_frame _) (by decide)
        split
        · exact h.push (latchDistress_frame _ _ _) (by decide)
        · exact h
      · exact ((SameBut.refl _ s).push (alarms_frame s _) (by decide)).push (latchDistress_frame _ _ _) (by decide)
          |>.push (noticeRaised_frame _ _ _) (by decide)
    · exact .refl _ _

theorem raiseAlarm_frame (k : AlarmKind) (z : Option Zone) (x : Subject) : SameBut [.alarms] s (raiseAlarm k z x s) := by
  unfold raiseAlarm; split
  · exact ((SameBut.refl _ s).push (alarms_frame s _) (by decide)).push (touchAlarms_frame _) (by decide)
      |>.push (noticeRaised_frame _ _ _) (by decide)
  · split
    · exact makeAlarm_frame _ _
    · exact raiseFull_frame _ _

theorem endAlarm_frame (k : AlarmKind) (z : Option Zone) (x : Subject) : SameBut [.alarms] s (endAlarm k z x s) := by
  unfold endAlarm; split
  · exact ((SameBut.refl _ s).push (alarms_frame s _) (by decide)).push (touchAlarms_frame _) (by decide)
      |>.push (noticeChanged_frame _ _ _) (by decide)
  · exact .refl _ _

theorem endAlarms_frame (p : AlarmRec → Bool) : SameBut [.alarms] s (endAlarms p s) :=
  foldl_frame _ (fun _ _ => endAlarm_frame _ _ _ _) _ s

/-! ### Suppression -/

theorem suppNotice_frame (z : Zone) (c : SuppCause) : SameBut [] s (suppNotice z c s) := by
  unfold suppNotice; split
  · exact .refl _ _
  · exact dueNotice_frame _ _

theorem setSuppState_frame (z : Zone) (x : SuppRec) : SameBut [.supp] s (setSuppState z x s) := by
  unfold setSuppState
  simp only []
  split
  · exact (setSuppRec_frame s z x).push (handOn_frame _ _) (by decide)
  · split
    · exact (setSuppRec_frame s z x).push (handOn_frame _ _) (by decide)
    · exact setSuppRec_frame s z x

theorem confirmZone_frame (z : Zone) : SameBut [.supp] s (confirmZone z s) := setSuppState_frame _ _ _
theorem enterReleasing_frame (z : Zone) (c : ReleaseCause) : SameBut [.supp] s (enterReleasing z c s) := setSuppState_frame _ _ _
theorem noticeForce_frame (c : ForceCause) : SameBut [.ports] s (noticeForce c s) := notify_frame _ _ _ _ _

theorem closeWindow_frame (c : ForceCause) : SameBut [.supp, .ports] s (closeWindow c s) :=
  ((SameBut.refl _ s).push (supp_frame s _) (by decide)).push (noticeForce_frame _ _) (by decide)

theorem discardHalves_frame (z : Zone) : SameBut [.supp, .ports] s (discardHalves z s) := by
  unfold discardHalves; split
  · exact ((SameBut.refl _ s).push (supp_frame s _) (by decide)).push (noticeForce_frame _ _) (by decide)
  · exact .refl _ _

theorem driveOutputs_frame (z : Zone) : SameBut [.lines] s (driveOutputs z s) := setOutput_frame _ _ _

/-- What a change of hold reasons can change (R126, R128, R129, R144, R145). -/
def holdParts : List Part := [.supp, .ports, .lines]

theorem holdTransition_frame (z : Zone) : SameBut holdParts s (holdTransition z s) := by
  unfold holdTransition; simp only []
  have k (x : SuppRec) : SameBut holdParts s (driveOutputs z (suppNotice z .holdChange (s.setSuppRec z x))) :=
    (((SameBut.refl _ s).push (setSuppRec_frame s _ _) (by decide)).push (suppNotice_frame _ _ _) (by decide)).push
      (driveOutputs_frame _ _) (by decide)
  split
  · split
    · exact k _
    · exact .refl _ _
  · split
    · exact .refl _ _
    · exact (k _).push (discardHalves_frame _ _) (by decide)
  · exact .refl _ _

theorem changeHolds_frame (z : Zone) (h : HoldSet) : SameBut holdParts s (changeHolds z h s) := by
  unfold changeHolds; simp only []
  refine .push ?_ (holdTransition_frame _ _) (by decide)
  generalize hu : (if h = (s.suppRec z).holds then s else _) = u
  have h : SameBut holdParts s u := by
    subst hu; split
    · exact .refl _ _
    · exact ((SameBut.refl _ s).push (setSuppRec_frame s _ _) (by decide)).push (suppNotice_frame _ _ _) (by decide)
  split
  · exact h.push (closeWindow_frame _ _) (by decide)
  · exact h

theorem refreshHolds_frame (z : Zone) : SameBut holdParts s (refreshHolds z s) := changeHolds_frame s z _
theorem takeCertainty_frame (z : Zone) (c : Certainty) : SameBut holdParts s (takeCertainty z c s) := changeHolds_frame s z _

theorem takePull_frame (z : Zone) : SameBut [.supp] s (takePull z s) := by
  unfold takePull; simp only []; split
  · exact ((SameBut.refl _ s).push (suppNotice_frame _ _ _) (by decide)).push (confirmZone_frame _ _) (by decide)
  · exact ((SameBut.refl _ s).push (setSuppRec_frame s _ _) (by decide)).push (suppNotice_frame _ _ _) (by decide)

theorem takePressure_frame (z : Zone) : SameBut [.supp] s (takePressure z s) := by
  unfold takePressure; simp only []; split
  · exact ((SameBut.refl _ s).push (suppNotice_frame _ _ _) (by decide)).push (setSuppState_frame _ _ _) (by decide)
  · exact (SameBut.refl _ s).push (suppNotice_frame _ _ _) (by decide)

theorem takeChord_frame : SameBut [.supp, .ports] s (takeChord s) := by
  unfold takeChord; split
  · exact ((SameBut.refl _ s).push (supp_frame s _) (by decide)).push (noticeForce_frame _ _) (by decide)
  · exact .refl _ _

/-! ### Roster and hours -/

theorem noticePassage_frame (d : DoorId) (b : Badge) (x : Source) (o : Decided) (r : PassageReason) (g : Option Nat) (es : List EntryNo)
    (q : Option Byte) : SameBut [.ports] s (noticePassage d b x o r g es q s) := notify_frame _ _ _ _ _

theorem bumpGeneration_frame (b : Bool) (z : Zone) (before : State) : SameBut [.zones] s (bumpGeneration b z before s) := by
  unfold bumpGeneration; split
  · exact setZone_frame _ _ _
  · exact .refl _ _

theorem noticeZone_frame (b : Bool) (z : Zone) (before : State) : SameBut [] s (noticeZone b z before s) := by
  unfold noticeZone; split
  · exact dueNotice_frame _ _
  · exact .refl _ _

theorem endClaim_frame (b : Bool) (z : Zone) (before : State) : SameBut [.zones] s (endClaim b z before s) :=
  ((SameBut.refl _ s).push (bumpGeneration_frame s _ _ _) (by decide)).push (noticeZone_frame _ _ _ _) (by decide)

theorem amendEntries_frame (z : Zone) (f : Entry → Entry) : SameBut [.pool, .zones] s (amendEntries z f s) :=
  ((SameBut.refl _ s).push (pool_frame s _) (by decide)).push (endClaim_frame _ _ _ _) (by decide)

theorem evalWarning_frame (z : Zone) (c : Bool) : SameBut [.hours, .loops] s (evalWarning z c s) := by
  unfold evalWarning; split
  · exact ((SameBut.refl _ s).push (setWarning_frame s _ _) (by decide)).push (indicate_frame _ _ _ _) (by decide)
  · simp only []; split
    · exact (SameBut.refl _ s).push (setWarning_frame s _ _) (by decide)
    · exact ((SameBut.refl _ s).push (setWarning_frame s _ _) (by decide)).push (indicate_frame _ _ _ _) (by decide)
  · exact .refl _ _

theorem loneRule_frame (z : Zone) : SameBut [.pool, .zones] s (loneRule z s) := by
  unfold loneRule; split
  · exact .refl _ _
  · split
    · exact amendEntries_frame _ _ _
    · exact amendEntries_frame _ _ _

theorem markUnescorted_frame (z : Zone) (n : EntryNo) (b : Option Badge) :
    SameBut [.pool, .zones, .alarms] s (markUnescorted z n b s) := by
  unfold markUnescorted; split
  · exact ((SameBut.refl _ s).push (amendEntries_frame s _ _) (by decide)).push (raiseAlarm_frame _ _ _ _) (by decide)
  · exact .refl _ _

theorem markVisitors_frame (z : Zone) : SameBut [.pool, .zones, .alarms] s (markVisitors z s) :=
  foldl_frame _ (fun _ _ => markUnescorted_frame _ _ _ _) _ s

theorem clearUnescorted_frame (z : Zone) : SameBut [.pool, .zones, .alarms] s (clearUnescorted z s) :=
  ((SameBut.refl _ s).push (amendEntries_frame s _ _) (by decide)).push (endAlarms_frame _ _) (by decide)

theorem dropPairing_frame (z : Zone) : SameBut [.zones, .passage] s (dropPairing z s) :=
  ((SameBut.refl _ s).push (setZone_frame s _ _) (by decide)).push (setZonePassage_frame _ _ _) (by decide)

theorem clearPairing_frame (z : Zone) (c : PassageReason) (b : Bool) :
    SameBut [.zones, .passage, .loops, .ports] s (clearPairing z c b s) := by
  unfold clearPairing; split
  · have h (d : DoorId) (k : Badge) : SameBut [.zones, .passage, .loops, .ports] s (noticePassage d k .none .denied c none [] none (dropPairing z s)) :=
      ((SameBut.refl _ s).push (dropPairing_frame s _) (by decide)).push (noticePassage_frame _ _ _ _ _ _ _ _ _) (by decide)
    simp only []; split
    · exact (h _ _).push (indicate_frame _ _ _ _) (by decide)
    · exact h _ _
  · exact .refl _ _

theorem alarmTakesClaim_frame (z : Zone) (before : State) : SameBut [.pool, .zones, .alarms] s (alarmTakesClaim z before s) := by
  unfold alarmTakesClaim; simp only []
  generalize hu : endAlarms _ s = u
  have h1 : SameBut [.pool, .zones, .alarms] s u := by subst hu; exact (endAlarms_frame s _).mono (by decide)
  generalize hv : (if ((removedBadged z before s).any fun e => e.role == .escort) = true then markVisitors z u else u) = v
  have h2 : SameBut [.pool, .zones, .alarms] s v := by
    subst hv; split
    · exact h1.push (markVisitors_frame _ _) (by decide)
    · exact h1
  split
  · exact h2.push (clearUnescorted_frame _ _) (by decide)
  · exact h2

theorem hoursTakesClaim_frame (b : Bool) (z : Zone) (before : State) :
    SameBut [.pool, .zones, .hours, .passage, .loops, .ports] s (hoursTakesClaim b z before s) := by
  unfold hoursTakesClaim; simp only []
  have h1 : SameBut [.pool, .zones, .hours, .passage, .loops, .ports] s
      (if (before.badgedCount z != s.badgedCount z || before.anonymousCount z != s.anonymousCount z) = true then loneRule z s else s) := by
    split
    · exact (SameBut.refl _ s).push (loneRule_frame _ _) (by decide)
    · exact .refl _ _
  generalize (if (before.badgedCount z != s.badgedCount z || before.anonymousCount z != s.anonymousCount z) = true then loneRule z s else s) = t at h1
  have h2 : SameBut [.pool, .zones, .hours, .passage, .loops, .ports] s
      (if (before.roster z == [] && s.roster z != []) = true then clearPairing z .pairCleared true t else t) := by
    split
    · exact h1.push (clearPairing_frame _ _ _ _) (by decide)
    · exact h1
  split
  · exact h2.push (evalWarning_frame _ _ _) (by decide)
  · exact h2

theorem handCertainty_frame (z : Zone) (before : State) : SameBut [] s (handCertainty z before s) := by
  unfold handCertainty; split
  · exact .refl _ _
  · exact handOn_frame _ _

/-- A claim changes what its own effect changes, and what the alarm and hours units do with it (R19). -/
theorem claimWith_frame (b : Bool) (z : Zone) (f : State → State) {l : List Part} (hf : SameBut l s (f s)) {m : List Part} (hl : l ⊆ m)
    (hm : [Part.pool, .zones, .hours, .passage, .alarms, .loops, .ports] ⊆ m) : SameBut m s (claimWith b z f s) := by
  unfold claimWith
  refine .push (.push (.push (.push (hf.mono hl) (endClaim_frame _ _ _ _) (fun _ h => hm ?_)) (handCertainty_frame _ _ _)
    (List.nil_subset _)) (hoursTakesClaim_frame _ _ _ _) (fun _ h => hm ?_)) (alarmTakesClaim_frame _ _ _) (fun _ h => hm ?_) <;> (revert h; simp only [List.mem_cons]; grind)

/-- The same of a claim that the roster shows. -/
theorem claim_frame (z : Zone) (f : State → State) {l : List Part} (hf : SameBut l s (f s)) {m : List Part} (hl : l ⊆ m)
    (hm : [Part.pool, .zones, .hours, .passage, .alarms, .loops, .ports] ⊆ m) : SameBut m s (claim z f s) :=
  claimWith_frame s false z f hf hl hm

theorem addReasonCore_frame (z : Zone) (r : Reason) : SameBut [.zones] s (addReasonCore z r s) := setZone_frame _ _ _

/-- What a claim with an effect on the roster and the zone records alone can change. -/
def claimParts : List Part := [.pool, .zones, .hours, .passage, .alarms, .loops, .ports]

/-- Adding a reason, as any claim (`addReason_frame` says more). -/
theorem addReason_claim_frame (z : Zone) (r : Reason) : SameBut claimParts s (addReason z r s) :=
  claim_frame s z _ (addReasonCore_frame s z r) (by decide) (by decide)

theorem createEntry_frame (mk : EntryNo → Entry) : SameBut [.pool] s (createEntry mk s) := by
  unfold createEntry; split
  · exact pool_frame _ _
  · exact .refl _ _

theorem createAnonymous_frame (z : Zone) (x : Location) : SameBut claimParts s (createAnonymous z x s) := by
  unfold createAnonymous; split
  · exact claim_frame s z _ (createEntry_frame s _) (by decide) (by decide)
  · exact addReason_claim_frame _ _ _

theorem admitGroup_frame (z : Zone) (g : Nat) (ms : List Member) : SameBut claimParts s (admitGroup z g ms s) :=
  claim_frame s z _ (foldl_frame (l := [.pool]) _ (fun _ _ => createEntry_frame _ _) ms s) (by decide) (by decide)

theorem relocate_frame (z : Zone) (sel : Entry → Bool) (x y : Location) (g : GroupChange) (k : Nat) :
    SameBut claimParts s (relocate z sel x y g k s) := by
  unfold relocate; split
  · exact claim_frame s z _ (pool_frame s _) (by decide) (by decide)
  · exact .refl _ _

theorem removeEntries_frame (z : Zone) (sel : Entry → Bool) : SameBut claimParts s (removeEntries z sel s) :=
  claim_frame s z _ (pool_frame s _) (by decide) (by decide)

theorem amendGroup_frame (z : Zone) (sel : Entry → Bool) (g : Option Nat) : SameBut [.pool, .zones] s (amendGroup z sel g s) :=
  amendEntries_frame _ _ _

theorem adjustHeadcount_frame (z : Zone) (u d : Nat) : SameBut claimParts s (adjustHeadcount z u d s) := by
  unfold adjustHeadcount; simp only []; split
  · exact ((SameBut.refl _ s).push (setZone_frame s _ _) (by decide)).push (addReason_claim_frame _ _ _) (by decide)
  · split
    · exact ((SameBut.refl _ s).push (setZone_frame s _ _) (by decide)).push (addReason_claim_frame _ _ _) (by decide)
    · exact (SameBut.refl _ s).push (setZone_frame s _ _) (by decide)

theorem sweepResultClaim_frame (z : Zone) (o : SweepOutcome) : SameBut claimParts s (sweepResultClaim z o s) :=
  claim_frame s z _ (setZone_frame s _ _) (by decide) (by decide)

/-! ### Doors -/

theorem doorNotice_frame (d : DoorId) (o : Option ReleaseEnd) : SameBut [] s (doorNotice d o s) := dueNotice_frame _ _
theorem leaveRail_frame (d : DoorId) : SameBut [.doors] s (leaveRail d s) := setRail_frame _ _ _
theorem setWait_frame (d : DoorId) (w : WaitSet) : SameBut [.doors] s (setWait d w s) := setDoor_frame _ _ _

theorem detachRelease_frame (d : DoorId) (o : ReleaseEnd) (b : Bool) : SameBut [.doors] s (detachRelease d o b s) := by
  unfold detachRelease; split
  · exact (((SameBut.refl _ s).push (leaveRail_frame s _) (by decide)).push (setDoor_frame _ _ _) (by decide)).push
      (handOn_frame _ _) (by decide)
  · exact .refl _ _

theorem endQueued_frame (d : DoorId) (o : ReleaseEnd) : SameBut [.doors] s (endQueued d o s) :=
  ((((SameBut.refl _ s).push (detachRelease_frame s _ _ _) (by decide)).push (setDoor_frame _ _ _) (by decide)).push
    (doorNotice_frame _ _ _) (by decide)).push (handOnFirst_frame _ _) (by decide) |>.push (handOn_frame _ _) (by decide)

theorem beginWithdrawal_frame (d : DoorId) : SameBut [.doors, .passage, .loops] s (beginWithdrawal d s) := by
  unfold beginWithdrawal; simp only []
  refine .push ?_ (handOnFirst_frame _ _) (by decide)
  split
  · exact (((((SameBut.refl _ s).push (leaveRail_frame s _) (by decide)).push (setRail_frame _ _ _) (by decide)).push
      (setDoor_frame _ _ _) (by decide)).push (doorNotice_frame _ _ _) (by decide)).push (giveDoorCmd_frame _ _ _) (by decide)
  · exact (((((SameBut.refl _ s).push (leaveRail_frame s _) (by decide)).push (setRail_frame _ _ _) (by decide)).push
      (setDoor_frame _ _ _) (by decide)).push (doorNotice_frame _ _ _) (by decide)).push (giveDoorCmd_frame _ _ _) (by decide)
      |>.push (setZonePassage_frame _ _ _) (by decide)

theorem offerRail_frame (d : DoorId) : SameBut [.doors, .passage, .loops] s (offerRail d s) := by
  unfold offerRail; simp only []; split
  · exact beginWithdrawal_frame _ _
  · have h : SameBut [.doors, .passage, .loops] s (setWait d { WaitSet.empty with rail := true } s) :=
      (SameBut.refl _ s).push (setWait_frame _ _ _) (by decide)
    split
    · exact h.push (setRail_frame _ _ _) (by decide)
    · split
      · split
        · exact (h.push (setRail_frame _ _ _) (by decide)).push (endQueued_frame _ _ _) (by decide)
        · exact h.push (setRail_frame _ _ _) (by decide)
      · exact h.push (endQueued_frame _ _ _) (by decide)

theorem evaluateDoor_frame (d : DoorId) : SameBut [.doors, .passage, .loops] s (evaluateDoor d s) := by
  unfold evaluateDoor; split
  · rename_i r _ _
    simp only []
    have h : SameBut [.doors, .passage, .loops] s
        (if (otherReasons s d r.kind).interlock = r.wait.interlock then s else s.handOnFirst (.reevaluate (zoneOf d))) := by
      split
      · exact .refl _ _
      · exact (SameBut.refl _ s).push (handOnFirst_frame _ _) (by decide)
    split
    · refine .push ?_ (setWait_frame _ _ _) (by decide)
      split
      · exact h.push (leaveRail_frame _ _) (by decide)
      · exact h
    · split
      · exact h
      · exact (h.push (setWait_frame _ _ _) (by decide)).push (offerRail_frame _ _) (by decide)
  · exact .refl _ _

theorem evaluateZone_frame (z : Zone) : SameBut [.doors, .passage, .loops] s (evaluateZone z s) :=
  ((SameBut.refl _ s).push (evaluateDoor_frame s _) (by decide)).push (evaluateDoor_frame _ _) (by decide)

theorem standBack_frame (d : DoorId) : SameBut [.doors] s (standBack d s) := by
  unfold standBack; split
  · refine .push ?_ (setWait_frame _ _ _) (by decide)
    split
    · exact leaveRail_frame _ _
    · exact .refl _ _
  · exact .refl _ _

theorem evaluateAfterEvacuation_frame (z : Zone) : SameBut [.doors, .passage, .loops] s (evaluateAfterEvacuation z s) :=
  ((((SameBut.refl _ s).push (standBack_frame s _) (by decide)).push (standBack_frame _ _) (by decide)).push
    (evaluateDoor_frame _ _) (by decide)).push (evaluateDoor_frame _ _) (by decide)

theorem abandonSweep_frame (z : Zone) : SameBut [.doors] s (abandonSweep z s) := by
  unfold abandonSweep; split
  · exact (((SameBut.refl _ s).push (setUnderSweep_frame s _ _) (by decide)).push (handOnFirst_frame _ _) (by decide)).push
      (handOn_frame _ _) (by decide)
  · exact .refl _ _

theorem attachRelease_frame (d : DoorId) (k : ReleaseKind) (o : Origin) (g : Option Nat) :
    SameBut [.doors, .passage, .loops] s (attachRelease d k o g s) := by
  unfold attachRelease; simp only []
  refine .push (.push (.push (.push ?_ (setDoor_frame _ _ _) (by decide)) (doorNotice_frame _ _ _) (by decide))
    (handOnFirst_frame _ _) (by decide)) (evaluateDoor_frame _ _) (by decide)
  split
  · exact (SameBut.refl _ s).push (abandonSweep_frame _ _) (by decide)
  · exact .refl _ _

theorem windowRestart_frame (d : DoorId) : SameBut [.doors] s (windowRestart d s) := by
  unfold windowRestart; simp only []; split
  · exact setDoor_frame _ _ _
  · exact .refl _ _

theorem groupSet_frame (d : DoorId) (g : Nat) : SameBut [.doors] s (groupSet d g s) := by
  unfold groupSet; simp only []; split
  · split
    · exact (setDoor_frame s _ _).push (doorNotice_frame _ _ _) (by decide)
    · exact .refl _ _
  · exact .refl _ _

theorem enterThrowing_frame (d : DoorId) : SameBut [.doors, .loops] s (enterThrowing d s) := by
  unfold enterThrowing; simp only []
  have h (x : Door) : SameBut [.doors, .loops] s
      (((doorNotice d none (s.setDoor d x)).giveDoorCmd d .throwBolt).handOnFirst (.reevaluate (zoneOf d))) :=
    ((((SameBut.refl _ s).push (setDoor_frame s _ _) (by decide)).push (doorNotice_frame _ _ _) (by decide)).push
      (giveDoorCmd_frame _ _ _) (by decide)).push (handOnFirst_frame _ _) (by decide)
  split
  · split
    · exact (h _).push (handOn_frame _ _) (by decide)
    · exact h _
  · exact h _

theorem enterOpen_frame (d : DoorId) (o : Option ReleaseEnd) : SameBut [.doors] s (enterOpen d o s) :=
  (((SameBut.refl _ s).push (setDoor_frame s _ _) (by decide)).push (doorNotice_frame _ _ _) (by decide)).push
    (handOnFirst_frame _ _) (by decide)

theorem enterFault_frame (d : DoorId) (o : Option ReleaseEnd) : SameBut [.doors, .alarms, .loops] s (enterFault d o s) := by
  unfold enterFault; simp only []
  refine .push (.push (.push ?_ (doorNotice_frame _ _ _) (by decide)) (giveDoorCmd_frame _ _ _) (by decide)) (handOnFirst_frame _ _) (by decide)
  have h (x : Door) : SameBut [.doors, .alarms, .loops] s ((detachRelease d .abandoned false s).setDoor d x) :=
    ((SameBut.refl _ s).push (detachRelease_frame s _ _ _) (by decide)).push (setDoor_frame _ _ _) (by decide)
  split
  · exact h _
  · exact (h _).push (raiseAlarm_frame _ _ _ _) (by decide)

theorem judgeTravel_frame (d : DoorId) (n : Nat) : SameBut [.doors, .alarms] s (judgeTravel d n s) := by
  unfold judgeTravel; simp only []
  have h (x : Door) : SameBut [.doors, .alarms] s (doorNotice d none (s.setDoor d x)) :=
    ((SameBut.refl _ s).push (setDoor_frame s _ _) (by decide)).push (doorNotice_frame _ _ _) (by decide)
  split
  · refine .push ?_ (raiseAlarm_frame _ _ _ _) (by decide)
    split
    · exact .refl _ _
    · exact h _
  · refine .push ?_ (endAlarm_frame _ _ _ _) (by decide)
    split
    · exact h _
    · exact .refl _ _

theorem enterSecured_frame (d : DoorId) : SameBut [.doors, .alarms] s (enterSecured d s) := by
  unfold enterSecured; simp only []
  refine .push (.push (.push (.push (.push (.push (.push ?_ (setDoor_frame _ _ _) (by decide)) (endAlarm_frame _ _ _ _) (by decide))
    (endAlarm_frame _ _ _ _) (by decide)) (endAlarm_frame _ _ _ _) (by decide)) (doorNotice_frame _ _ _) (by decide))
    (handOnFirst_frame _ _) (by decide)) (handOn_frame _ _) (by decide)
  split
  · exact (SameBut.refl _ s).push (detachRelease_frame _ _ _ _) (by decide)
  · exact .refl _ _

theorem cutShort_frame (d : DoorId) : SameBut [.doors, .loops] s (cutShort d s) := by
  unfold cutShort; split
  · split
    · exact .refl _ _
    · rename_i r _ _
      simp only []
      generalize hu : (if r.kind = ReleaseKind.hold then _ else s) = u
      have hs : SameBut [.doors, .loops] s u := by
        subst hu
        split
        · exact (SameBut.refl _ s).push (setDoor_frame _ _ _) (by decide)
        · exact .refl _ _
      split
      · exact hs.push (endQueued_frame _ _ _) (by decide)
      · exact hs.push (setDoor_frame _ _ _) (by decide)
      · exact hs.push (enterThrowing_frame _ _) (by decide)
      · exact hs.push (setDoor_frame _ _ _) (by decide)
      · exact hs
  · exact .refl _ _

theorem cutZone_frame (z : Zone) : SameBut [.doors, .loops] s (cutZone z s) :=
  ((SameBut.refl _ s).push (cutShort_frame s _) (by decide)).push (cutShort_frame _ _) (by decide)

/-! ### Sweep -/

theorem noticeSweep_frame (z : Zone) (o : Option SweepOutcome) (k : SweepKind) (m : Option SweepRec) :
    SameBut [] s (noticeSweep z o k m s) := dueNotice_frame _ _

theorem bumpDeferral_frame (z : Zone) : SameBut [.zones, .alarms] s (bumpDeferral z s) := by
  unfold bumpDeferral setDeferrals; simp only []; split
  · exact ((SameBut.refl _ s).push (setZone_frame s _ _) (by decide)).push (raiseAlarm_frame _ _ _ _) (by decide)
  · exact (SameBut.refl _ s).push (setZone_frame s _ _) (by decide)

theorem deferSweep_frame (z : Zone) (k : SweepKind) : SameBut [.zones, .alarms] s (deferSweep z k s) :=
  ((SameBut.refl _ s).push (bumpDeferral_frame s _) (by decide)).push (noticeSweep_frame _ _ _ _ _) (by decide)

theorem startSweep_frame (z : Zone) (k : SweepKind) :
    SameBut [.zones, .doors, .sweep, .alarms, .loops] s (startSweep z k s) := by
  unfold startSweep; simp only []; split
  · exact (((((SameBut.refl _ s).push (setUnderSweep_frame s _ _) (by decide)).push (setZone_frame _ _ _) (by decide)).push
      (sweep_frame _ _) (by decide)).push (giveDoorCmd_frame _ _ _) (by decide)).push (giveDoorCmd_frame _ _ _) (by decide)
  · exact (SameBut.refl _ s).push (deferSweep_frame _ _ _) (by decide)

/-! ### The port link -/

theorem setLink_frame (p : PortId) (x : Link) : SameBut [.ports] s (setLink p x s) := setPort_frame _ _ _

theorem heard_frame (p : PortId) : SameBut [.passage] s (heard p s) := by
  unfold heard; split
  · exact passage_frame _ _
  · exact .refl _ _

theorem arrive_frame (p : PortId) (r : Request) : SameBut [.passage, .ports] s (arrive p r s) :=
  ((SameBut.refl _ s).push (setPort_frame s _ _) (by decide)).push (heard_frame _ _) (by decide)

theorem answerNow_frame (p : PortId) (b : Byte) (x : Status) : SameBut [.passage, .ports] s (answerNow p b x s) :=
  ((SameBut.refl _ s).push (setLink_frame s _ _) (by decide)).push (heard_frame _ _) (by decide)

theorem placeReply_frame (p : PortId) (r : Request) (x : Status) (b : List Byte) : SameBut [.ports] s (placeReply p r x b s) :=
  setPort_frame _ _ _

end Sys2Proof.Machine
end

