-- ==== Sys2Proof/Laws/Alarms.lean ====
section
/-! SUPPORT. What a raising leaves of the alarm queue, its counters and latches and the notices due, case by case (R101 to R106). -/
namespace Sys2Proof.Machine
set_option Elab.async false -- one proof at a time keeps the threads of a compile few

variable (s : State)

/-! ### The parts of a raising -/

@[simp] theorem touchAlarms_queue : (touchAlarms s).alarms.queue = s.alarms.queue := by unfold touchAlarms; split <;> rfl
@[simp] theorem touchAlarms_latch : (touchAlarms s).alarms.latch = s.alarms.latch := by unfold touchAlarms; split <;> rfl
@[simp] theorem touchAlarms_mark : (touchAlarms s).alarms.overflowMark = s.alarms.overflowMark := by unfold touchAlarms; split <;> rfl
@[simp] theorem touchAlarms_count : (touchAlarms s).alarms.overflowCount = s.alarms.overflowCount := by unfold touchAlarms; split <;> rfl
@[simp] theorem touchAlarms_due : (touchAlarms s).work.due = s.work.due := by unfold touchAlarms; split <;> rfl

@[simp] theorem latchDistress_queue (k : AlarmKind) (zone : Option Zone) :
    (latchDistress k zone s).alarms.queue = s.alarms.queue := by
  unfold latchDistress; split
  · split <;> rfl
  · rfl
@[simp] theorem latchDistress_mark (k : AlarmKind) (zone : Option Zone) :
    (latchDistress k zone s).alarms.overflowMark = s.alarms.overflowMark := by
  unfold latchDistress; split
  · split <;> rfl
  · rfl
@[simp] theorem latchDistress_count (k : AlarmKind) (zone : Option Zone) :
    (latchDistress k zone s).alarms.overflowCount = s.alarms.overflowCount := by
  unfold latchDistress; split
  · split <;> rfl
  · rfl
@[simp] theorem latchDistress_generation (k : AlarmKind) (zone : Option Zone) :
    (latchDistress k zone s).alarms.generation = s.alarms.generation := by
  unfold latchDistress; split
  · split <;> rfl
  · rfl
@[simp] theorem latchDistress_due (k : AlarmKind) (zone : Option Zone) : (latchDistress k zone s).work.due = s.work.due := by
  unfold latchDistress; split
  · split <;> rfl
  · rfl

/-- A latch is set exactly for a distress kind of its zone, and stays set (R117). -/
theorem latch_latchDistress (k : AlarmKind) (zone : Option Zone) (z : Zone) :
    (latchDistress k zone s).latch z = (s.latch z || (k.distress && zone == some z)) := by
  unfold latchDistress; split
  · rename_i y
    by_cases h : z = y
    · subst h; cases hk : k.distress <;> simp
    · have : (some y == some z) = false := by simpa using Ne.symm h
      rw [this, Bool.and_false, Bool.or_false]
      split
      · exact latch_setLatch_ne s _ h
      · rfl
  · simp

/-- A new record stands at the place R101 gives it. -/
theorem insertAlarm_placed (r : AlarmRec) (q : List AlarmRec) : AlarmPlaced r q (insertAlarm r q) := by
  induction q with
  | nil => exact ⟨[], [], rfl, rfl, by simp, by simp⟩
  | cons x q ih =>
    unfold insertAlarm; split
    · rename_i h
      obtain ⟨xs, ys, h1, h2, h3, h4⟩ := ih
      exact ⟨x :: xs, ys, by rw [h1]; rfl, by rw [h2]; rfl, by simpa [h] using h3, h4⟩
    · rename_i h
      exact ⟨[], x :: q, rfl, rfl, by simp, by simpa using h⟩

/-- A new record adds itself to what a count over the queue finds. -/
theorem AlarmPlaced.count {r : AlarmRec} {q q' : List AlarmRec} (h : AlarmPlaced r q q') (p : AlarmRec → Bool) :
    (q'.filter p).length = (q.filter p).length + if p r then 1 else 0 := by
  obtain ⟨xs, ys, rfl, rfl, -, -⟩ := h
  rw [List.filter_append, List.filter_append, List.filter_cons]
  split <;> simp only [List.length_append, List.length_cons] <;> omega

theorem makeAlarm_queue (r : AlarmRec) : (makeAlarm r s).alarms.queue = insertAlarm r s.alarms.queue := by
  simp [makeAlarm, (noticeRaised_frame _ _ _).alarms]
theorem makeAlarm_latch (r : AlarmRec) : (makeAlarm r s).alarms.latch = s.alarms.latch := by
  simp [makeAlarm, (noticeRaised_frame _ _ _).alarms]
theorem makeAlarm_mark (r : AlarmRec) : (makeAlarm r s).alarms.overflowMark = s.alarms.overflowMark := by
  simp [makeAlarm, (noticeRaised_frame _ _ _).alarms]
theorem makeAlarm_count (r : AlarmRec) : (makeAlarm r s).alarms.overflowCount = s.alarms.overflowCount := by
  simp [makeAlarm, (noticeRaised_frame _ _ _).alarms]
theorem makeAlarm_due (r : AlarmRec) : (makeAlarm r s).work.due = s.work.due ++ [.alarmRaised r true] := by
  simp [makeAlarm, noticeRaised, State.dueNotice]

/-! ### The record a full queue gives up (R104) -/

/-- Both ENDED and ACKNOWLEDGED. -/
def AlarmRec.done (r : AlarmRec) : Bool := !r.present && r.acknowledged

/-- With no record both ENDED and ACKNOWLEDGED there is none to reclaim (R105). -/
theorem reclaimable_none {q : List AlarmRec} (h : ∀ x ∈ q, AlarmRec.done x = false) : reclaimable q = none := by
  unfold reclaimable
  induction q with
  | nil => rfl
  | cons x q ih =>
    have hx : (!x.present && x.acknowledged) = false := h x (by simp)
    rw [List.foldl_cons, hx]
    exact ih fun y hy => h y (by simp [hy])

/-- The record reclaimed is the oldest by first raised, and then the earlier in the queue (R104). -/
theorem reclaimable_some {xs ys : List AlarmRec} {old : AlarmRec} (ho : AlarmRec.done old = true)
    (hx : ∀ x ∈ xs, AlarmRec.done x = true → old.firstRaised < x.firstRaised)
    (hy : ∀ y ∈ ys, AlarmRec.done y = true → old.firstRaised ≤ y.firstRaised) : reclaimable (xs ++ old :: ys) = some old := by
  unfold reclaimable
  have ho' : (!old.present && old.acknowledged) = true := ho
  generalize hf : (fun (best : Option AlarmRec) (r : AlarmRec) => if (!r.present && r.acknowledged) = true then
    match best with | none => some r | some b => if r.firstRaised < b.firstRaised then some r else best else best) = f
  have back : ∀ (l : List AlarmRec), (∀ y ∈ l, AlarmRec.done y = true → old.firstRaised ≤ y.firstRaised) →
      l.foldl f (some old) = some old := by
    intro l
    induction l with
    | nil => intro _; rfl
    | cons y l ih =>
      intro h
      rw [List.foldl_cons]
      have : f (some old) y = some old := by
        rw [← hf]; simp only []
        split
        · rename_i hd; rw [if_neg]; exact Nat.not_lt.2 (h y (by simp) hd)
        · rfl
      rw [this]; exact ih fun z hz => h z (by simp [hz])
  have front : ∀ (l : List AlarmRec) (b : Option AlarmRec), (∀ c ∈ b, old.firstRaised < c.firstRaised) →
      (∀ x ∈ l, AlarmRec.done x = true → old.firstRaised < x.firstRaised) → ∀ c ∈ l.foldl f b, old.firstRaised < c.firstRaised := by
    intro l
    induction l with
    | nil => intro b hb _; exact hb
    | cons x l ih =>
      intro b hb h
      rw [List.foldl_cons]
      refine ih _ ?_ fun z hz => h z (by simp [hz])
      rw [← hf]; simp only []
      intro c hc
      split at hc
      · rename_i hd
        have := h x (by simp) hd
        split at hc
        · simp at hc; rw [← hc]; exact this
        · split at hc
          · simp at hc; rw [← hc]; exact this
          · exact hb c hc
      · exact hb c hc
  have h1 := front xs none (by simp) hx
  have h2 : f (xs.foldl f none) old = some old := by
    generalize xs.foldl f none = b at h1
    rw [← hf]; simp only [ho', if_true]
    cases b with
    | none => rfl
    | some c => exact if_pos (h1 c rfl)
  rw [List.foldl_append, List.foldl_cons, h2]; exact back ys hy

/-! ### A raising, case by case -/

variable {s} {kind : AlarmKind} {zone : Option Zone} {subject : Subject}

/-- A re-raise (R102). -/
theorem raiseAlarm_found {r : AlarmRec} (h : (s.alarms.queue.find? fun x => x.hasKey kind zone subject) = some r) :
    let t := raiseAlarm kind zone subject s
    t.alarms.queue = s.alarms.queue.map (fun x => if x.hasKey kind zone subject then reraised s.uptime x else x)
    ∧ t.alarms.latch = s.alarms.latch ∧ t.alarms.overflowMark = s.alarms.overflowMark
    ∧ t.alarms.overflowCount = s.alarms.overflowCount ∧ t.work.due = s.work.due ++ [.alarmRaised (reraised s.uptime r) true] := by
  simp only [raiseAlarm, h, (noticeRaised_frame _ _ _).alarms]
  simp [noticeRaised, State.dueNotice]

/-- A new alarm with room (R103). -/
theorem raiseAlarm_room (h : (s.alarms.queue.find? fun x => x.hasKey kind zone subject) = none)
    (hl : s.alarms.queue.length < Config.alarmCap) :
    raiseAlarm kind zone subject s = makeAlarm (newAlarm s kind zone subject) s := by
  simp only [raiseAlarm, h, hl, if_true]

/-- A new alarm in a full queue is taken by R104 to R106. -/
theorem raiseAlarm_full (h : (s.alarms.queue.find? fun x => x.hasKey kind zone subject) = none)
    (hl : Config.alarmCap ≤ s.alarms.queue.length) :
    raiseAlarm kind zone subject s = raiseFull (newAlarm s kind zone subject) s := by
  simp only [raiseAlarm, h, Nat.not_lt.2 hl, if_false]

/-- R104. -/
theorem raiseFull_reclaims {r old : AlarmRec} (h : reclaimable s.alarms.queue = some old) : let t := raiseFull r s
    t.alarms.queue = insertAlarm r (eraseAlarm old s.alarms.queue) ∧ t.alarms.latch = s.alarms.latch
    ∧ t.alarms.overflowMark = s.alarms.overflowMark ∧ t.alarms.overflowCount = s.alarms.overflowCount
    ∧ t.work.due = s.work.due ++ [.alarmChanged old .removed, .alarmRaised r true] := by
  simp only [raiseFull, h, makeAlarm_queue, makeAlarm_latch, makeAlarm_mark, makeAlarm_count, makeAlarm_due,
    (noticeChanged_frame _ _ _).alarms]
  simp [noticeChanged, State.dueNotice]

/-- R105. -/
theorem raiseFull_displaces {r last : AlarmRec} (h : reclaimable s.alarms.queue = none) (hl : s.alarms.queue.getLast? = some last)
    (hp : r.kind.priority < last.kind.priority) : let t := raiseFull r s
    t.alarms.queue = insertAlarm r (eraseAlarm last s.alarms.queue) ∧ t.alarms.overflowMark = s.alarms.overflowMark
    ∧ t.alarms.overflowCount = s.alarms.overflowCount
    ∧ (∀ z, t.latch z = (s.latch z || (last.present && last.kind.distress && last.zone == some z)))
    ∧ t.work.due = s.work.due ++ [.alarmDisplaced last r, .alarmRaised r true] := by
  have hL (x : State) (z : Zone) (y : AlarmRec) : (makeAlarm y x).latch z = x.latch z := by
    unfold State.latch; rw [makeAlarm_latch]
  have hD (x : State) (z : Zone) (a b : AlarmRec) : (noticeDisplaced a b x).latch z = x.latch z := rfl
  have hT (x : State) (z : Zone) : (touchAlarms x).latch z = x.latch z := by unfold State.latch; rw [touchAlarms_latch]
  simp only [raiseFull, h, hl, hp, if_true, makeAlarm_queue, makeAlarm_mark, makeAlarm_count, makeAlarm_due,
    (noticeDisplaced_frame _ _ _).alarms, hL, hD]
  cases last.present with
  | true =>
    refine ⟨by simp, by simp, by simp, fun z => ?_, by simp [noticeDisplaced, State.dueNotice]⟩
    rw [if_pos rfl, latch_latchDistress, hT]; simp; rfl
  | false =>
    refine ⟨by simp, by simp, by simp, fun z => ?_, by simp [noticeDisplaced, State.dueNotice]⟩
    simp [hT]; rfl

/-- R106. -/
theorem raiseFull_overflows {r last : AlarmRec} (h : reclaimable s.alarms.queue = none) (hl : s.alarms.queue.getLast? = some last)
    (hp : last.kind.priority ≤ r.kind.priority) : let t := raiseFull r s
    t.alarms.queue = s.alarms.queue ∧ t.alarms.generation = s.alarms.generation ∧ t.alarms.overflowMark = true
    ∧ t.alarms.overflowCount = min (s.alarms.overflowCount + 1) 255
    ∧ (∀ z, t.latch z = (s.latch z || (r.kind.distress && r.zone == some z)))
    ∧ t.work.due = s.work.due ++ [.alarmRaised r false] := by
  have hR (x : State) (z : Zone) (y : AlarmRec) : (noticeRaised y false x).latch z = x.latch z := rfl
  simp only [raiseFull, h, hl, Nat.not_lt.2 hp, if_false, (noticeRaised_frame _ _ _).alarms, hR, latch_latchDistress]
  refine ⟨by simp, by simp, by simp, by simp, fun z => rfl, by simp [noticeRaised, State.dueNotice]⟩

/-! ### What a raising or an ending leaves of other keys -/

theorem insertAlarm_mem {r y : AlarmRec} {q : List AlarmRec} (h : y ∈ insertAlarm r q) : y = r ∨ y ∈ q := by
  obtain ⟨xs, ys, rfl, e, -⟩ := insertAlarm_placed r q
  rw [e] at h; simp at h ⊢
  rcases h with h | h | h
  · exact .inr (.inl h)
  · exact .inl h
  · exact .inr (.inr h)

theorem eraseAlarm_mem {r y : AlarmRec} {q : List AlarmRec} (h : y ∈ eraseAlarm r q) : y ∈ q := (List.mem_filter.1 h).1

/-- A record in the queue after a raising is of the key raised or was there before. -/
theorem raiseAlarm_from {y : AlarmRec} (h : y ∈ (raiseAlarm kind zone subject s).alarms.queue) :
    y.hasKey kind zone subject = true ∨ y ∈ s.alarms.queue := by
  have new : (newAlarm s kind zone subject).hasKey kind zone subject = true := by simp [newAlarm, AlarmRec.hasKey]
  have ins {q : List AlarmRec} (m : y ∈ insertAlarm (newAlarm s kind zone subject) q) (hq : y ∈ q → y ∈ s.alarms.queue) :
      y.hasKey kind zone subject = true ∨ y ∈ s.alarms.queue :=
    (insertAlarm_mem m).elim (fun e => .inl (by rw [e]; exact new)) fun m => .inr (hq m)
  unfold raiseAlarm at h
  split at h
  · rw [(noticeRaised_frame _ _ _).alarms, touchAlarms_queue] at h
    obtain ⟨x, hx, e⟩ := List.mem_map.1 h
    split at e
    · rename_i k; exact .inl (by rw [← e]; simpa [reraised, AlarmRec.hasKey] using k)
    · exact .inr (by rw [← e]; exact hx)
  · split at h
    · rw [makeAlarm_queue] at h; exact ins h id
    · unfold raiseFull at h
      split at h
      · rw [makeAlarm_queue, (noticeChanged_frame _ _ _).alarms, touchAlarms_queue] at h
        exact ins h eraseAlarm_mem
      · split at h
        · split at h
          · rw [makeAlarm_queue, (noticeDisplaced_frame _ _ _).alarms] at h
            refine ins h fun m => ?_
            split at m
            · rw [latchDistress_queue, touchAlarms_queue] at m; exact eraseAlarm_mem m
            · rw [touchAlarms_queue] at m; exact eraseAlarm_mem m
          · rw [(noticeRaised_frame _ _ _).alarms, latchDistress_queue] at h; exact .inr h
        · exact .inr h

theorem endAlarm_length : (endAlarm kind zone subject s).alarms.queue.length = s.alarms.queue.length := by
  unfold endAlarm; split
  · rw [(noticeChanged_frame _ _ _).alarms, touchAlarms_queue]; simp
  · rfl

/-- A raising makes no record of another kind PRESENT. -/
theorem raiseAlarm_absent {k : AlarmKind} {z : Option Zone} {x : Subject} (hk : k ≠ kind) (h : s.alarmPresent k z x = false) :
    (raiseAlarm kind zone subject s).alarmPresent k z x = false := by
  unfold State.alarmPresent at h ⊢
  rw [List.any_eq_false] at h ⊢
  intro y hy
  rcases raiseAlarm_from hy with m | m
  · intro c; simp [AlarmRec.hasKey] at m c; exact hk (c.1.1.1.symm.trans m.1.1)
  · exact h y m

/-- An ending makes no record PRESENT. -/
theorem endAlarm_stays_absent {k : AlarmKind} {z : Option Zone} {x : Subject} (h : s.alarmPresent k z x = false) :
    (endAlarm kind zone subject s).alarmPresent k z x = false := by
  unfold endAlarm; split
  · unfold State.alarmPresent at h ⊢
    rw [(noticeChanged_frame _ _ _).alarms, touchAlarms_queue]
    rw [List.any_eq_false] at h ⊢
    intro y hy
    obtain ⟨r, hr, rfl⟩ := List.mem_map.1 hy
    split
    · simp
    · exact h r hr
  · exact h

/-- An ending leaves a PRESENT record of another kind PRESENT. -/
theorem endAlarm_keeps {k : AlarmKind} {z : Option Zone} {x : Subject} (hk : k ≠ kind) (h : s.alarmPresent k z x = true) :
    (endAlarm kind zone subject s).alarmPresent k z x = true := by
  unfold endAlarm; split
  · unfold State.alarmPresent at h ⊢
    rw [(noticeChanged_frame _ _ _).alarms, touchAlarms_queue]
    rw [List.any_eq_true] at h ⊢
    obtain ⟨r, hr, m⟩ := h
    refine ⟨r, List.mem_map.2 ⟨r, hr, if_neg ?_⟩, m⟩
    intro c; simp [AlarmRec.hasKey] at c m; exact hk (m.1.1.1.symm.trans c.1.1)
  · exact h

end Sys2Proof.Machine
end

