-- ==== Sys2Proof/Laws/Commands.lean ====
section
/-! SUPPORT. How commands end: one lemma for an event, for each way a request is taken, and for what a request leaves of the port. -/
namespace Sys2Proof.Machine
set_option Elab.async false -- one proof at a time keeps the threads of a compile few

/-- An event whose occasion is present ends the step with its effect. -/
theorem event_of_occasion {b : Bool} (h : b = true) (f : State → State) (s : State) : event b f s = .next (finish s (f s)) := by
  simp [event, h]

/-- An event whose occasion is absent changes nothing (log entry 3). -/
theorem event_without_occasion {b : Bool} (h : b = false) (f : State → State) (s : State) : event b f s = .next s := by
  simp [event, h]

section
variable {s : State} {p : PortId} (r : Request) (d : State → Decision)

theorem started_of_ready (h : s.ready p = true) : s.started = true := by
  simp [State.ready] at h; exact h.1.1

theorem slot_of_ready (h : s.ready p = true) : (s.port p).slot = none := by
  simp [State.ready] at h; exact h.1.2

theorem reply_of_ready (h : s.ready p = true) : (s.port p).reply = none := by
  simp [State.ready] at h; exact h.2

/-- A request that finds its port READY arrives and is taken (log entry 4). -/
theorem request_of_ready (h : s.ready p = true) : request p r d s = .next (takeRequest p r d (arrive p r s)) := by
  simp [request, slot_of_ready h, h]

/-- A request that finds its port not READY is answered BUSY (R183). -/
theorem request_of_unready (h : s.ready p = false) (hs : (s.port p).slot ≠ some r) :
    request p r d s = .next (answerNow p (Request.code r) .busy s) := by
  simp [request, h, hs]

/-- A request waiting in its slot is taken (log entry 4). -/
theorem request_of_waiting (h : (s.port p).slot = some r) (hw : heldForWrite s p = false) (hs : s.started = true) :
    request p r d s = .next (takeRequest p r d s) := by
  simp [request, h, hw, hs]

theorem takeRequest_permitted (h : permitted p r = true) (s : State) : takeRequest p r d s = carryOut p r s (d s) := by
  simp [takeRequest, h]

theorem takeRequest_notPermitted (h : permitted p r = false) (s : State) :
    takeRequest p r d s = placeReply p r .notPermitted [] s := by
  simp [takeRequest, h]
end

/-! ### What an arriving request leaves -/

section
variable (s : State) (p : PortId) (r : Request)

@[simp] theorem port_arrive : (arrive p r s).port p = { s.port p with slot := some r, link := .answering [] false } := by
  cases p <;> rfl

@[simp] theorem ports_heard : (heard p s).ports = s.ports := by unfold heard; split <;> rfl
@[simp] theorem now_arrive : (arrive p r s).now = s.now := (arrive_frame s p r).now
@[simp] theorem started_arrive : (arrive p r s).started = s.started := (arrive_frame s p r).started
@[simp] theorem store_arrive : (arrive p r s).store = s.store := (arrive_frame s p r).store
@[simp] theorem zones_arrive : (arrive p r s).zones = s.zones := (arrive_frame s p r).zones
@[simp] theorem pool_arrive : (arrive p r s).pool = s.pool := (arrive_frame s p r).pool
@[simp] theorem doors_arrive : (arrive p r s).doors = s.doors := (arrive_frame s p r).doors
@[simp] theorem hours_arrive : (arrive p r s).hours = s.hours := (arrive_frame s p r).hours
@[simp] theorem alarms_arrive : (arrive p r s).alarms = s.alarms := (arrive_frame s p r).alarms
@[simp] theorem supp_arrive : (arrive p r s).supp = s.supp := (arrive_frame s p r).supp
@[simp] theorem sweep_arrive : (arrive p r s).sweep = s.sweep := (arrive_frame s p r).sweep
@[simp] theorem loops_arrive : (arrive p r s).loops = s.loops := (arrive_frame s p r).loops
@[simp] theorem lines_arrive : (arrive p r s).lines = s.lines := (arrive_frame s p r).lines
@[simp] theorem pending_arrive : (arrive p r s).pending = s.pending := (arrive_frame s p r).pending
@[simp] theorem work_arrive : (arrive p r s).work = s.work := by
  unfold arrive heard; split <;> cases p <;> rfl
@[simp] theorem cache_arrive : (arrive p r s).passage.cache = s.passage.cache := by
  unfold arrive heard; split <;> cases p <;> rfl
@[simp] theorem queries_arrive : (arrive p r s).passage.queries = s.passage.queries := by
  unfold arrive heard; split <;> cases p <;> rfl

/-- A port other than the access port is not heard by the passage unit. -/
theorem passage_arrive (h : p ≠ .access) : (arrive p r s).passage = s.passage := by
  unfold arrive heard; simp [h]

theorem arrive_frame_ports (h : p ≠ .access) : SameBut [.ports] s (arrive p r s) := fun x hx => by
  cases x <;> first
    | exact absurd (by decide) hx
    | exact (arrive_frame s p r) _ (by decide)
    | exact passage_arrive s p r h
end

end Sys2Proof.Machine
end

