-- ==== Sys2Proof/Laws/Roster.lean ====
section
/-! SUPPORT. The roster: what the end of a claim leaves of the entries (R12, R19), the claims that move nobody, and the numbering of the
pool (R3). -/
namespace Sys2Proof.Machine
set_option Elab.async false -- one proof at a time keeps the threads of a compile few

/-- Two states hold the same entries, up to the fields the hours and alarm units write. -/
def SameEntries (s t : State) : Prop := t.pool.map Entry.core = s.pool.map Entry.core

theorem SameEntries.refl (s : State) : SameEntries s s := rfl
theorem SameEntries.trans {s t u : State} (h : SameEntries s t) (k : SameEntries t u) : SameEntries s u := Eq.trans k h
theorem SameEntries.of_pool {s t : State} (h : t.pool = s.pool) : SameEntries s t := by rw [SameEntries, h]
theorem SameEntries.of_frame {l : List Part} {s t : State} (h : SameBut l s t) (hn : Part.pool ∉ l := by decide) : SameEntries s t :=
  .of_pool (h _ hn)

theorem SameEntries.push {s t u : State} {l : List Part} (h : SameEntries s t) (k : SameBut l t u) (hn : Part.pool ∉ l := by decide) :
    SameEntries s u := h.trans (.of_frame k hn)

theorem pool_amendEntries (z : Zone) (f : Entry → Entry) (s : State) :
    (amendEntries z f s).pool = s.pool.map fun e => if e.zone = z then f e else e :=
  (endClaim_frame { s with pool := (s.pool.map fun e => if e.zone = z then f e else e) } false z s).pool

theorem sameEntries_amend (z : Zone) (f : Entry → Entry) (hf : ∀ e, (f e).core = e.core) (s : State) :
    SameEntries s (amendEntries z f s) := by
  rw [SameEntries, pool_amendEntries, List.map_map]
  congr 1; funext e
  simp only [Function.comp]
  split <;> simp [hf]

theorem sameEntries_loneRule (z : Zone) (s : State) : SameEntries s (loneRule z s) := by
  unfold loneRule; split
  · exact .refl _
  · split
    · exact sameEntries_amend _ _ (fun e => by split <;> rfl) _
    · exact sameEntries_amend z (fun e => { e with lone := false }) (fun _ => rfl) s

theorem sameEntries_foldl {α : Type} (f : State → α → State) (hf : ∀ s a, SameEntries s (f s a)) (xs : List α) (s : State) :
    SameEntries s (xs.foldl f s) := by
  induction xs generalizing s with
  | nil => exact .refl _
  | cons a xs ih => exact (hf s a).trans (ih _)

theorem sameEntries_markVisitors (z : Zone) (s : State) : SameEntries s (markVisitors z s) := by
  refine sameEntries_foldl _ (fun t e => ?_) _ _
  unfold markUnescorted; split
  · exact (sameEntries_amend _ _ (fun e => by split <;> rfl) _).push (raiseAlarm_frame _ _ _ _)
  · exact .refl _

theorem sameEntries_clearUnescorted (z : Zone) (s : State) : SameEntries s (clearUnescorted z s) :=
  (sameEntries_amend z (fun e => { e with unescorted := false }) (fun _ => rfl) s).push (endAlarms_frame _ _)

theorem sameEntries_hoursTakesClaim (b : Bool) (z : Zone) (before s : State) : SameEntries s (hoursTakesClaim b z before s) := by
  unfold hoursTakesClaim; simp only []
  have h1 : SameEntries s
      (if (before.badgedCount z != s.badgedCount z || before.anonymousCount z != s.anonymousCount z) = true then loneRule z s else s) := by
    split
    · exact sameEntries_loneRule _ _
    · exact .refl _
  generalize (if (before.badgedCount z != s.badgedCount z || before.anonymousCount z != s.anonymousCount z) = true then loneRule z s else s) = t at h1
  have h2 : SameEntries s (if (before.roster z == [] && s.roster z != []) = true then clearPairing z .pairCleared true t else t) := by
    split
    · exact h1.push (clearPairing_frame _ _ _ _)
    · exact h1
  split
  · exact h2.push (evalWarning_frame _ _ _)
  · exact h2

theorem sameEntries_alarmTakesClaim (z : Zone) (before s : State) : SameEntries s (alarmTakesClaim z before s) := by
  unfold alarmTakesClaim; simp only []
  generalize hu : endAlarms _ s = u
  have h1 : SameEntries s u := by subst hu; exact .of_frame (endAlarms_frame s _)
  generalize hv : (if ((removedBadged z before s).any fun e => e.role == .escort) = true then markVisitors z u else u) = v
  have h2 : SameEntries s v := by
    subst hv; split
    · exact h1.trans (sameEntries_markVisitors _ _)
    · exact h1
  split
  · exact h2.trans (sameEntries_clearUnescorted _ _)
  · exact h2

/-- A claim leaves the entries its own effect leaves, but for the marks and deadlines the hours and alarm units keep (R19). -/
theorem sameEntries_claim (b : Bool) (z : Zone) (f : State → State) (s : State) : SameEntries (f s) (claimWith b z f s) :=
  (((SameEntries.of_frame (endClaim_frame _ _ _ _)).trans (.of_frame (handCertainty_frame _ _ _))).trans (sameEntries_hoursTakesClaim _ _ _ _)).trans (sameEntries_alarmTakesClaim _ _ _)

/-! ### What a claim leaves of the zone records -/

/-- Two states agree on what a zone's record says of counts and reasons. -/
def SameCounts (s t : State) : Prop := ∀ z : Zone, (t.zone z).headcount = (s.zone z).headcount
  ∧ (t.zone z).headcountValid = (s.zone z).headcountValid ∧ (t.zone z).reasons = (s.zone z).reasons
  ∧ (t.zone z).late = (s.zone z).late ∧ (t.zone z).inService = (s.zone z).inService
  ∧ (t.zone z).sweepMark = (s.zone z).sweepMark ∧ (t.zone z).deferrals = (s.zone z).deferrals
  ∧ (t.zone z).lastResult = (s.zone z).lastResult

theorem SameCounts.refl (s : State) : SameCounts s s := fun _ => ⟨rfl, rfl, rfl, rfl, rfl, rfl, rfl, rfl⟩

theorem SameCounts.trans {s t u : State} (h : SameCounts s t) (k : SameCounts t u) : SameCounts s u := fun z => by
  obtain ⟨a1, a2, a3, a4, a5, a6, a7, a8⟩ := h z
  obtain ⟨b1, b2, b3, b4, b5, b6, b7, b8⟩ := k z
  exact ⟨b1.trans a1, b2.trans a2, b3.trans a3, b4.trans a4, b5.trans a5, b6.trans a6, b7.trans a7, b8.trans a8⟩

theorem SameCounts.of_frame {l : List Part} {s t : State} (h : SameBut l s t) (hn : Part.zones ∉ l := by decide) : SameCounts s t :=
  fun z => by rw [zone_congr (h _ hn)]; exact ⟨rfl, rfl, rfl, rfl, rfl, rfl, rfl, rfl⟩

theorem SameCounts.push {s t u : State} {l : List Part} (h : SameCounts s t) (k : SameBut l t u) (hn : Part.zones ∉ l := by decide) :
    SameCounts s u := h.trans (.of_frame k hn)

theorem sameCounts_bump (b : Bool) (z : Zone) (before s : State) : SameCounts s (bumpGeneration b z before s) := by
  unfold bumpGeneration; split
  · intro y
    by_cases h : y = z
    · subst h; simp
    · rw [zone_setZone_ne _ _ h]; exact ⟨rfl, rfl, rfl, rfl, rfl, rfl, rfl, rfl⟩
  · exact .refl _

theorem sameCounts_endClaim (b : Bool) (z : Zone) (before s : State) : SameCounts s (endClaim b z before s) :=
  (sameCounts_bump _ _ _ _).push (noticeZone_frame _ _ _ _)

theorem sameCounts_amend (z : Zone) (f : Entry → Entry) (s : State) : SameCounts s (amendEntries z f s) := by
  unfold amendEntries
  have h : SameCounts s { s with pool := (s.pool.map fun e => if e.zone = z then f e else e) } := .of_frame (pool_frame s _)
  exact h.trans (sameCounts_endClaim _ _ _ _)

theorem sameCounts_loneRule (z : Zone) (s : State) : SameCounts s (loneRule z s) := by
  unfold loneRule; split
  · exact .refl _
  · split <;> exact sameCounts_amend _ _ _

theorem sameCounts_foldl {α : Type} (f : State → α → State) (hf : ∀ s a, SameCounts s (f s a)) (xs : List α) (s : State) :
    SameCounts s (xs.foldl f s) := by
  induction xs generalizing s with
  | nil => exact .refl _
  | cons a xs ih => exact (hf s a).trans (ih _)

theorem sameCounts_markVisitors (z : Zone) (s : State) : SameCounts s (markVisitors z s) := by
  refine sameCounts_foldl _ (fun t e => ?_) _ _
  unfold markUnescorted; split
  · exact (sameCounts_amend _ _ _).push (raiseAlarm_frame _ _ _ _)
  · exact .refl _

theorem sameCounts_clearUnescorted (z : Zone) (s : State) : SameCounts s (clearUnescorted z s) :=
  (sameCounts_amend z (fun e => { e with unescorted := false }) s).push (endAlarms_frame _ _)

theorem sameCounts_dropPairing (z : Zone) (s : State) : SameCounts s (dropPairing z s) := by
  refine SameCounts.push (t := s.setZone z { s.zone z with pairing := none }) (fun y => ?_) (setZonePassage_frame _ _ _)
  by_cases h : y = z
  · subst h; simp
  · rw [zone_setZone_ne _ _ h]; exact ⟨rfl, rfl, rfl, rfl, rfl, rfl, rfl, rfl⟩

theorem sameCounts_clearPairing (z : Zone) (c : PassageReason) (b : Bool) (s : State) : SameCounts s (clearPairing z c b s) := by
  unfold clearPairing; split
  · simp only []
    split
    · exact ((sameCounts_dropPairing _ _).push (noticePassage_frame _ _ _ _ _ _ _ _ _)).push (indicate_frame _ _ _ _)
    · exact (sameCounts_dropPairing _ _).push (noticePassage_frame _ _ _ _ _ _ _ _ _)
  · exact .refl _

theorem sameCounts_hoursTakesClaim (b : Bool) (z : Zone) (before s : State) : SameCounts s (hoursTakesClaim b z before s) := by
  unfold hoursTakesClaim; simp only []
  have h1 : SameCounts s
      (if (before.badgedCount z != s.badgedCount z || before.anonymousCount z != s.anonymousCount z) = true then loneRule z s else s) := by
    split
    · exact sameCounts_loneRule _ _
    · exact .refl _
  generalize (if (before.badgedCount z != s.badgedCount z || before.anonymousCount z != s.anonymousCount z) = true then loneRule z s else s) = t at h1
  have h2 : SameCounts s (if (before.roster z == [] && s.roster z != []) = true then clearPairing z .pairCleared true t else t) := by
    split
    · exact h1.trans (sameCounts_clearPairing _ _ _ _)
    · exact h1
  split
  · exact h2.push (evalWarning_frame _ _ _)
  · exact h2

theorem sameCounts_alarmTakesClaim (z : Zone) (before s : State) : SameCounts s (alarmTakesClaim z before s) := by
  unfold alarmTakesClaim; simp only []
  generalize hu : endAlarms _ s = u
  have h1 : SameCounts s u := by subst hu; exact .of_frame (endAlarms_frame s _)
  generalize hv : (if ((removedBadged z before s).any fun e => e.role == .escort) = true then markVisitors z u else u) = v
  have h2 : SameCounts s v := by
    subst hv; split
    · exact h1.trans (sameCounts_markVisitors _ _)
    · exact h1
  split
  · exact h2.trans (sameCounts_clearUnescorted _ _)
  · exact h2

/-- A claim leaves the counts, reasons and service its own effect leaves (R12, R19). -/
theorem sameCounts_claim (b : Bool) (z : Zone) (f : State → State) (s : State) : SameCounts (f s) (claimWith b z f s) :=
  (((sameCounts_endClaim _ _ _ _).trans (.of_frame (handCertainty_frame _ _ _))).trans (sameCounts_hoursTakesClaim _ _ _ _)).trans (sameCounts_alarmTakesClaim _ _ _)

/-! ### Adding a reason (R9) -/

theorem hoursTakesClaim_of_roster (z : Zone) (before s : State) (h : before.roster z = s.roster z) :
    hoursTakesClaim false z before s = s := by
  simp [hoursTakesClaim, State.badgedCount, State.anonymousCount, h]

/-- A test no record fits ends nothing. -/
theorem endAlarms_none (s : State) {p : AlarmRec → Bool} (h : ∀ r, p r = false) : endAlarms p s = s := by
  have hk : presentKeys s p = [] := by simp [presentKeys, h]
  rw [endAlarms, hk]; rfl

/-- A claim that leaves the roster and the certainty UNCERTAIN hands the alarm unit nothing to do (R19). -/
theorem alarmTakesClaim_of_roster (z : Zone) (before s : State) (h : before.roster z = s.roster z) (hu : s.certainty z = .uncertain) :
    alarmTakesClaim z before s = s := by
  have hg : removedBadged z before s = [] := by
    simp only [removedBadged, h, List.filter_eq_nil_iff]
    intro e he; simp
    exact fun _ => ⟨e, he, rfl⟩
  have he : escortArrived z before s = false := by
    simp only [escortArrived, h, List.any_eq_false]
    intro e he; simp
    exact fun _ _ => ⟨e, he, rfl, rfl⟩
  have hp : ∀ r, endedByClaim z [] false r = false := by
    intro r; cases hk : r.kind <;> simp [endedByClaim, namesBadge, hk]
  simp [alarmTakesClaim, hg, he, hu, endAlarms_none s hp]

/-- A claim adding a reason changes the zone records and gives a notice, no more (R9, R12). -/
theorem addReason_frame (z : Zone) (r : Reason) (s : State) : SameBut [.zones] s (addReason z r s) := by
  have h0 := handCertainty_frame (endClaim false z s (addReasonCore z r s)) z s
  have h1 : SameBut [.zones] s (handCertainty z s (endClaim false z s (addReasonCore z r s))) :=
    (((SameBut.refl _ s).push (addReasonCore_frame s z r) (by decide)).push (endClaim_frame _ _ _ _) (by decide)).push h0 (by decide)
  have hr : s.roster z = (handCertainty z s (endClaim false z s (addReasonCore z r s))).roster z := (roster_congr h1.pool z).symm
  have hc : ((handCertainty z s (endClaim false z s (addReasonCore z r s))).zone z).reasons ≠ ReasonSet.empty := by
    rw [zone_congr h0.zones, (sameCounts_endClaim false z s (addReasonCore z r s) z).2.2.1]
    simp [addReasonCore, ReasonSet.empty]
    cases r <;> simp [ReasonSet.insert]
  unfold addReason claim claimWith
  simp only [hoursTakesClaim_of_roster z s _ hr]
  rw [alarmTakesClaim_of_roster z s _ hr (by simp [State.certainty, hc])]
  exact h1

end Sys2Proof.Machine
end

