-- ==== Sys2Proof/Laws/StepEnd.lean ====
section
/-! SUPPORT. The end of a step: what it leaves of each zone (R128, R145), which parts it leaves alone, and the three ways a command's step
can end. -/
namespace Sys2Proof.Machine
set_option Elab.async false -- one proof at a time keeps the threads of a compile few

/-! ### One zone at the end of a step -/

/-- R128 of one zone. -/
def ZoneHeld (s : State) (z : Zone) : Prop :=
  (s.suppRec z).state = .preDischarge →
    s.certainty z = .empty ∧ s.distress z = 0 ∧ s.abortActive z = false ∧ (s.suppRec z).holds.panelHold = false

/-- R145 of one zone. -/
def ZoneDriven (s : State) (z : Zone) : Prop :=
  ((s.output z).release = true → (s.suppRec z).state = .releasing) ∧ ((s.output z).vent = true → (s.suppRec z).state = .vent)

theorem pruneZone_frame (s : State) (z : Zone) : SameBut [.passage] s (pruneZone z s) := setZonePassage_frame _ _ _

theorem closeZone_frame (s : State) (z : Zone) : SameBut [.passage, .supp, .ports, .lines] s (closeZone s z) :=
  ((SameBut.push (.refl _ _) (pruneZone_frame s z) (by decide)).push (refreshHolds_frame _ _) (by decide)).push
    (driveOutputs_frame _ _) (by decide)

@[simp] theorem suppRec_suppNotice (s : State) (y z : Zone) (c : SuppCause) : (suppNotice y c s).suppRec z = s.suppRec z :=
  suppRec_congr (suppNotice_frame _ _ _).supp z

theorem suppRec_of_zones {s t : State} (h : t.supp.zones = s.supp.zones) (z : Zone) : t.suppRec z = s.suppRec z := by
  simp [State.suppRec, h]

theorem suppZones_noticeForce (s : State) (c : ForceCause) : (noticeForce c s).supp = s.supp := (noticeForce_frame _ _).supp

@[simp] theorem suppRec_closeWindow (s : State) (c : ForceCause) (z : Zone) : (closeWindow c s).suppRec z = s.suppRec z :=
  suppRec_of_zones (by unfold closeWindow; rw [suppZones_noticeForce]) z

@[simp] theorem suppRec_discardHalves (s : State) (y z : Zone) : (discardHalves y s).suppRec z = s.suppRec z :=
  suppRec_of_zones (by unfold discardHalves; split <;> rfl) z

@[simp] theorem suppRec_driveOutputs (s : State) (y z : Zone) : (driveOutputs y s).suppRec z = s.suppRec z :=
  suppRec_congr (driveOutputs_frame _ _).supp z

theorem output_driveOutputs_ne (s : State) {y z : Zone} (h : z ≠ y) : (driveOutputs y s).output z = s.output z :=
  output_setOutput_ne _ _ h

theorem suppRec_holdTransition_ne (s : State) {y z : Zone} (h : z ≠ y) : (holdTransition y s).suppRec z = s.suppRec z := by
  unfold holdTransition; simp only []; split
  · split
    · simp [suppRec_setSuppRec_ne _ _ h]
    · rfl
  · split
    · rfl
    · simp [suppRec_setSuppRec_ne _ _ h]
  · rfl

/-- The end of a step of one zone leaves another zone's suppression record. -/
theorem suppRec_changeHolds_ne (s : State) {y z : Zone} (x : HoldSet) (h : z ≠ y) : (changeHolds y x s).suppRec z = s.suppRec z := by
  unfold changeHolds; simp only []
  rw [suppRec_holdTransition_ne _ h]
  generalize hb : (if x = (s.suppRec y).holds then s
    else suppNotice y .holdChange (s.setSuppRec y { s.suppRec y with holds := x })) = t
  have : t.suppRec z = s.suppRec z := by
    rw [← hb]; split
    · rfl
    · simp [suppRec_setSuppRec_ne _ _ h]
  split
  · simp [this]
  · exact this

theorem suppRec_closeZone_ne (s : State) {y z : Zone} (h : z ≠ y) : (closeZone s y).suppRec z = s.suppRec z := by
  unfold closeZone refreshHolds
  rw [suppRec_congr (driveOutputs_frame _ _).supp, suppRec_changeHolds_ne _ _ h, suppRec_congr (pruneZone_frame _ _).supp]

/-! ### The outputs that a change of hold reasons drives (R145) -/

/-- The line unit's state but for the outputs of one zone is as it was. -/
def OutputsBut (z : Zone) (s t : State) : Prop :=
  { t.lines with outputs := s.lines.outputs } = s.lines ∧ ∀ y, y ≠ z → t.output y = s.output y

theorem OutputsBut.of_lines {z : Zone} {s t : State} (h : t.lines = s.lines) : OutputsBut z s t :=
  ⟨by rw [h], fun y _ => output_congr h y⟩

theorem OutputsBut.trans {z : Zone} {s t u : State} (h : OutputsBut z s t) (k : OutputsBut z t u) : OutputsBut z s u := by
  refine ⟨?_, fun y hy => (k.2 y hy).trans (h.2 y hy)⟩
  have a := congrArg (fun l => { l with outputs := s.lines.outputs }) k.1
  exact a.trans h.1

theorem OutputsBut.table {z : Zone} {s t : State} (h : OutputsBut z s t) : t.lines.table = s.lines.table :=
  by simpa using congrArg (·.table) h.1

theorem driveOutputs_outputsBut (s : State) (z : Zone) : OutputsBut z s (driveOutputs z s) :=
  ⟨rfl, fun _ hy => output_driveOutputs_ne s hy⟩

theorem holdTransition_outputsBut (s : State) (z : Zone) : OutputsBut z s (holdTransition z s) := by
  unfold holdTransition; simp only []
  have k (x : SuppRec) : OutputsBut z s (driveOutputs z (suppNotice z .holdChange (s.setSuppRec z x))) :=
    (OutputsBut.of_lines (((setSuppRec_frame s z x).mono (by decide : _ ⊆ [.supp])).push (suppNotice_frame _ _ _) (by decide)).lines).trans
      (driveOutputs_outputsBut _ _)
  split
  · split
    · exact k _
    · exact .of_lines rfl
  · split
    · exact .of_lines rfl
    · exact (k _).trans (.of_lines (discardHalves_frame _ _).lines)
  · exact .of_lines rfl

theorem changeHolds_outputsBut (s : State) (z : Zone) (x : HoldSet) : OutputsBut z s (changeHolds z x s) := by
  unfold changeHolds; simp only []
  refine .trans ?_ (holdTransition_outputsBut _ _)
  generalize hb : (if x = (s.suppRec z).holds then s else _) = t
  have ht : OutputsBut z s t := by
    rw [← hb]; split
    · exact .of_lines rfl
    · exact .of_lines (((setSuppRec_frame s z _).mono (by decide : _ ⊆ [.supp])).push (suppNotice_frame _ _ _) (by decide)).lines
  split
  · exact ht.trans (.of_lines (closeWindow_frame _ _).lines)
  · exact ht

theorem closeZone_outputsBut (s : State) (z : Zone) : OutputsBut z s (closeZone s z) :=
  ((OutputsBut.of_lines (pruneZone_frame s z).lines).trans (changeHolds_outputsBut _ _ _)).trans (driveOutputs_outputsBut _ _)

theorem table_closeZone (s : State) (z : Zone) : (closeZone s z).lines.table = s.lines.table := (closeZone_outputsBut s z).table

theorem output_closeZone_ne (s : State) {y z : Zone} (h : z ≠ y) : (closeZone s y).output z = s.output z :=
  (closeZone_outputsBut s y).2 z h

theorem abortActive_of_table {s t : State} (h : t.lines.table = s.lines.table) (z : Zone) : t.abortActive z = s.abortActive z := by
  simp [State.abortActive, State.line, h]

/-- A change of hold reasons leaves those given, and with one of them the zone does not stand in PREDISCHARGE (R126, R128). -/
theorem changeHolds_holds (s : State) (z : Zone) (x : HoldSet) :
    ((changeHolds z x s).suppRec z).holds = x ∧ (((changeHolds z x s).suppRec z).state = .preDischarge → x.any = false) := by
  unfold changeHolds; simp only []
  generalize hb : (if x = (s.suppRec z).holds then s
    else suppNotice z .holdChange (s.setSuppRec z { s.suppRec z with holds := x })) = t
  have ht : (t.suppRec z).holds = x := by
    rw [← hb]; split
    · rename_i h; exact h.symm
    · simp
  generalize hc : (if (x.abort && !(s.suppRec z).holds.abort && t.halfNames z) = true then closeWindow .abort t else t) = u
  have hu : (u.suppRec z).holds = x := by
    rw [← hc]; split
    · simp [ht]
    · exact ht
  unfold holdTransition; simp only [hu]
  cases hst : (u.suppRec z).state <;> simp [hst, hu]
  · cases ha : x.any <;> simp [hst, hu]
  · cases ha : x.any <;> simp [hst, hu]

theorem closeZone_held (s : State) (z : Zone) : ZoneHeld (closeZone s z) z := by
  intro hst
  have hf := closeZone_frame s z
  have hs : (closeZone s z).suppRec z = (refreshHolds z (pruneZone z s)).suppRec z :=
    suppRec_congr (driveOutputs_frame _ _).supp z
  rw [hs] at hst ⊢
  unfold refreshHolds at hst ⊢
  obtain ⟨h1, h2⟩ := changeHolds_holds (pruneZone z s) z (holdSources (pruneZone z s) z)
  have ha := h2 hst
  have hp := pruneZone_frame s z
  have e1 : (pruneZone z s).certainty z = (closeZone s z).certainty z := by
    rw [certainty_congr hf.zones hf.pool, certainty_congr hp.zones hp.pool]
  have e2 : (pruneZone z s).distress z = (closeZone s z).distress z := by
    rw [distress_congr hf.alarms, distress_congr hp.alarms]
  have e3 : (pruneZone z s).abortActive z = (closeZone s z).abortActive z := by
    rw [abortActive_of_table (table_closeZone s z), abortActive_congr hp.lines]
  rw [h1]
  simp only [holdSources, HoldSet.any, e1, e2, e3] at ha ⊢
  cases hc : (closeZone s z).certainty z <;> simp_all

theorem closeZone_driven (s : State) (z : Zone) : ZoneDriven (closeZone s z) z := by
  unfold ZoneDriven
  have hs : (closeZone s z).suppRec z = (refreshHolds z (pruneZone z s)).suppRec z :=
    suppRec_congr (driveOutputs_frame _ _).supp z
  rw [hs]
  unfold closeZone driveOutputs; simp only [output_setOutput]
  generalize ((refreshHolds z (pruneZone z s)).suppRec z).state = st
  split <;> simp

theorem ZoneHeld.of_closeZone_ne {s : State} {y z : Zone} (h : z ≠ y) (k : ZoneHeld s z) : ZoneHeld (closeZone s y) z := by
  have hf := closeZone_frame s y
  unfold ZoneHeld
  rw [suppRec_closeZone_ne _ h, certainty_congr hf.zones hf.pool, distress_congr hf.alarms,
    abortActive_of_table (table_closeZone s y)]
  exact k

theorem ZoneDriven.of_closeZone_ne {s : State} {y z : Zone} (h : z ≠ y) (k : ZoneDriven s z) : ZoneDriven (closeZone s y) z := by
  unfold ZoneDriven
  rw [suppRec_closeZone_ne _ h, output_closeZone_ne _ h]
  exact k

/-! ### Every zone -/

theorem closeZones_fold (s : State) (l : List Zone) (P : State → Zone → Prop) (own : ∀ s z, P (closeZone s z) z)
    (other : ∀ s y z, z ≠ y → P s z → P (closeZone s y) z) (z : Zone) (h : z ∈ l ∨ P s z) : P (l.foldl closeZone s) z := by
  induction l generalizing s with
  | nil => exact h.resolve_left (by simp)
  | cons y l ih =>
    refine ih (closeZone s y) ?_
    by_cases hy : z = y
    · subst hy; exact .inr (own _ _)
    · rcases h with h | h
      · exact .inl ((List.mem_cons.1 h).resolve_left hy)
      · exact .inr (other _ _ _ hy h)

theorem closeZones_held (s : State) (z : Zone) : ZoneHeld (closeZones s) z :=
  closeZones_fold s allZones ZoneHeld closeZone_held (fun _ _ _ h k => k.of_closeZone_ne h) z (.inl (mem_allZones z))

theorem closeZones_driven (s : State) (z : Zone) : ZoneDriven (closeZones s) z :=
  closeZones_fold s allZones ZoneDriven closeZone_driven (fun _ _ _ h k => k.of_closeZone_ne h) z (.inl (mem_allZones z))

theorem closeZones_frame (s : State) : SameBut [.passage, .supp, .ports, .lines] s (closeZones s) :=
  foldl_frame closeZone closeZone_frame allZones s

/-! ### The end of a step -/

theorem giveDueNotices_frame (s : State) : SameBut [.ports] s (giveDueNotices s) :=
  foldl_frame _ (fun _ _ => notifyPorts_frame _ _ _) _ _

theorem keepPending_frame (b s : State) : SameBut [.pending] s (keepPending b s) := fun x hx => by
  cases x <;> first | rfl | exact absurd (by decide) hx

theorem orderDue_frame (f : List DueNotice → List DueNotice) (s : State) : SameBut [] s (orderDue f s) := .of_work _ _ _

/-- After the hand-ons the end of a step writes the group slots, hold reasons, suppression states, outputs and notices, no more. -/
theorem finishWith_frame (f : List DueNotice → List DueNotice) (b s : State) :
    SameBut [.pending, .passage, .supp, .ports, .lines] (settle Config.handOnBound s) (finishWith f b s) := by
  unfold finishWith
  generalize settle Config.handOnBound s = t
  exact ((((SameBut.push (.refl _ _) (closeZones_frame _) (by decide)).push (orderDue_frame _ _) (by decide)).push (giveDueNotices_frame _)
    (by decide)).push (.of_work [] _ _) (by decide)).push (keepPending_frame b _) (by decide)

/-- The last part of the end of a step. -/
theorem finishWith_closeZones (f : List DueNotice → List DueNotice) (b s : State) :
    SameBut [.pending, .ports] (closeZones (settle Config.handOnBound s)) (finishWith f b s) := by
  unfold finishWith
  generalize closeZones (settle Config.handOnBound s) = t
  exact (((SameBut.push (.refl _ _) (orderDue_frame f t) (by decide)).push (giveDueNotices_frame _) (by decide)).push (.of_work [] _ _)
    (by decide)).push (keepPending_frame b _) (by decide)

theorem pending_keepPending (b s : State) : (keepPending b s).pending = b.pending := rfl

theorem pending_finish (f : List DueNotice → List DueNotice) (b s : State) : (finishWith f b s).pending = b.pending :=
  pending_keepPending _ _

/-- The order of the notices shows in the ports alone. -/
theorem finishWith_order (f g : List DueNotice → List DueNotice) (b s : State) : SameBut [.ports] (finishWith f b s) (finishWith g b s) := by
  unfold finishWith
  generalize closeZones (settle Config.handOnBound s) = t
  have h (k : List DueNotice → List DueNotice) : SameBut [.ports] t (clearWork (giveDueNotices (orderDue k t))) :=
    ((SameBut.push (.refl _ _) (orderDue_frame k t) (by decide)).push (giveDueNotices_frame _) (by decide)).push (.of_work [] _ _) (by decide)
  intro x hx
  cases x <;> first
    | rfl
    | exact absurd (by decide) hx
    | (have hf := h f _ hx; have hg := h g _ hx; simp only [Part.Same, keepPending] at hf hg ⊢; exact hg.trans hf.symm)

theorem CountdownSafe.of_frame {s t : State} (h : CountdownSafe s) (f : SameBut [.pending, .now, .passage, .store, .ports] s t) :
    CountdownSafe t := fun z => by
  rw [suppRec_congr f.supp, certainty_congr f.zones f.pool, distress_congr f.alarms, abortActive_congr f.lines]
  exact h z

theorem OutputsSafe.of_frame {s t : State} (h : OutputsSafe s) (f : SameBut [.pending, .now, .passage, .store, .ports] s t) :
    OutputsSafe t := fun z => by
  rw [suppRec_congr f.supp, output_congr f.lines]
  exact h z

theorem finish_countdownSafe (b s : State) : CountdownSafe (finish b s) :=
  CountdownSafe.of_frame (fun z => closeZones_held _ z) ((finishWith_closeZones id b s).mono (by decide))

theorem finish_outputsSafe (b s : State) : OutputsSafe (finish b s) :=
  OutputsSafe.of_frame (fun z => closeZones_driven _ z) ((finishWith_closeZones id b s).mono (by decide))

/-! ### The ways a command's step ends -/

/-- A command's step ends with the end of a step, or leaves all but the ports, the passage unit's mark of the master and the store. -/
def Ends (s t : State) : Prop := (∃ b u, SameBut [.ports] (finish b u) t) ∨ SameBut [.passage, .store, .ports] s t

theorem Ends.of_finish (s b u : State) : Ends s (finish b u) := .inl ⟨b, u, .refl _ _⟩

theorem Ends.of_finishRequest (s b u : State) : Ends s (finishRequest b u) := .inl ⟨b, u, finishWith_order _ _ _ _⟩

theorem Ends.of_frame {l : List Part} {s t : State} (f : SameBut l s t) (h : l ⊆ [Part.passage, .store, .ports]) : Ends s t :=
  .inr (f.mono h)

theorem Ends.push {s t u : State} (h : Ends s t) (f : SameBut [.ports] t u) : Ends s u := by
  rcases h with ⟨b, v, h⟩ | h
  · exact .inl ⟨b, v, h.trans f⟩
  · exact .inr (h.push f (by decide))

theorem event_ends (b : Bool) (f : State → State) (s : State) : ∃ t, event b f s = .next t ∧ Ends s t := by
  cases b
  · exact ⟨s, rfl, .of_frame (.refl [] s) (by decide)⟩
  · exact ⟨_, rfl, .of_finish _ _ _⟩

/-- The writes a decision begins change the store alone. -/
def WritesStore (d : State → Decision) : Prop := ∀ s e, d s = .write e → SameBut [.store] s e

theorem carryOut_ends (p : PortId) (r : Request) {d : State → Decision} (hd : WritesStore d) (s u : State)
    (h : SameBut [.passage, .ports] s u) : Ends s (carryOut p r u (d u)) := by
  cases hu : d u with
  | refuse st x => exact (Ends.of_frame h (by decide)).push (placeReply_frame _ _ _ _ _)
  | read x => exact (Ends.of_frame h (by decide)).push (placeReply_frame _ _ _ _ _)
  | done st e x => exact (Ends.of_finishRequest s u e).push (placeReply_frame _ _ _ _ _)
  | write e =>
    refine .inr ((h.mono (by decide)).push ((hd u e hu).push (l := [.store]) ?_ (by decide)) (by decide))
    intro x hx; cases x <;> first | rfl | exact absurd (by decide) hx

theorem request_ends (p : PortId) (r : Request) {d : State → Decision} (hd : WritesStore d) (s : State) :
    ∃ t, request p r d s = .next t ∧ Ends s t := by
  have take (u : State) (h : SameBut [.passage, .ports] s u) : Ends s (takeRequest p r d u) := by
    unfold takeRequest; split
    · exact carryOut_ends p r hd s u h
    · exact (Ends.of_frame h (by decide)).push (placeReply_frame _ _ _ _ _)
  unfold request; split
  · exact ⟨_, rfl, take s (.refl _ _)⟩
  · split
    · exact ⟨_, rfl, take _ (arrive_frame _ _ _)⟩
    · exact ⟨_, rfl, .of_frame (answerNow_frame s _ _ _) (by decide)⟩

theorem beginControl_frame (x : ControlRec) (s : State) : SameBut [.store] s (beginControl x s) := store_frame _ _
theorem beginPart_frame (x : PartRec) (s : State) : SameBut [.store] s (beginPart x s) := store_frame _ _
theorem beginZone_frame (z : Zone) (x : ZoneCfg) (s : State) : SameBut [.store] s (beginZone z x s) := store_frame _ _

/-- A write that begins changes the store alone (R202). -/
theorem writeBegin_frame (r : Request) (s : State) : SameBut [.store] s (writeBegin r s) := by
  have zone (b : Byte) (f : Zone → State) (hf : ∀ k, SameBut [.store] s (f k)) : SameBut [.store] s (((zoneArg b).map f).getD s) := by
    cases zoneArg b
    · exact .refl _ _
    · exact hf _
  cases r with
  | writePassageConfig form =>
    cases form with
    | part f => exact beginPart_frame _ _
    | zone b f =>
      simp only [writeBegin, beginPassage]
      split
      · exact beginZone_frame _ _ _
      · exact .refl _ _
  | setService b d =>
    simp only [writeBegin]
    split
    · exact beginControl_frame _ _
    · exact .refl _ _
  | writeSuppressionConfig b f => exact zone _ _ fun _ => beginZone_frame _ _ _
  | isolate b => exact zone _ _ fun _ => beginControl_frame _ _
  | deisolate b => exact zone _ _ fun _ => beginControl_frame _ _
  | excludeSweep b => exact zone _ _ fun _ => beginControl_frame _ _
  | includeSweep b => exact zone _ _ fun _ => beginControl_frame _ _
  | writeSchedule ws => exact beginPart_frame _ _
  | lockdown w => exact beginControl_frame _ _
  | endLockdown w => exact beginControl_frame _ _
  | enableForceChord v => exact beginControl_frame _ _
  | _ => exact .refl _ _

theorem decideWrite_writesStore (r : Request) : WritesStore (decideWrite r) := by
  intro s e h
  unfold decideWrite at h
  split at h
  · simp at h
  · split at h
    · simp at h
    · split at h
      · simp at h
      · split at h
        · simp at h
        · simp at h; rw [← h]; exact writeBegin_frame _ _

/-- A decision that begins no write. -/
theorem writesStore_of_never {d : State → Decision} (h : ∀ s e, d s ≠ .write e) : WritesStore d := fun s e k => absurd k (h s e)

end Sys2Proof.Machine
end

