-- ==== Sys2Proof/Laws/Ends.lean ====
section
/-! SUPPORT. What a step can do, said once for every command: it answers a next state, and ends in one of the ways of `Ends`. -/
namespace Sys2Proof.Machine
set_option Elab.async false -- one proof at a time keeps the threads of a compile few

/-! ### Decisions that begin no write -/

theorem ofZone_never (z : Byte) {d : Zone → State → Decision} (h : ∀ k s e, d k s ≠ .write e) : WritesStore (ofZone z d) := by
  refine writesStore_of_never fun s e k => ?_
  unfold ofZone at k
  split at k
  · exact h _ _ _ k
  · cases k

theorem readOfZone_never (z : Byte) (reply : State → Zone → List Byte) : WritesStore (readOfZone z reply) := by
  refine writesStore_of_never fun s e h => ?_
  unfold readOfZone at h
  split at h <;> cases h

theorem decideReadStatus_never : WritesStore fun t => .read (statusReply t) :=
  writesStore_of_never fun _ _ h => by cases h

theorem decideReadRoster_never (z : Byte) (f : Byte) : WritesStore (decideReadRoster z f) := by
  refine writesStore_of_never fun s e h => ?_
  unfold decideReadRoster at h
  try simp only [] at h
  repeat' split at h
  all_goals cases h

theorem decideReadDoor_never (z : Byte) : WritesStore (decideReadDoor z) := by
  refine writesStore_of_never fun s e h => ?_
  unfold decideReadDoor at h
  try simp only [] at h
  repeat' split at h
  all_goals cases h

theorem decideReadAlarms_never (z : Byte) : WritesStore (decideReadAlarms z) := by
  refine writesStore_of_never fun s e h => ?_
  unfold decideReadAlarms at h
  try simp only [] at h
  repeat' split at h
  all_goals cases h

theorem decideReadConfig_never (w : ConfigSelector) : WritesStore (decideReadConfig w) := by
  refine writesStore_of_never fun s e h => ?_
  unfold decideReadConfig at h
  try simp only [] at h
  repeat' split at h
  all_goals cases h

theorem decideFetchNotice_never (p : PortId) : WritesStore (decideFetchNotice p) := by
  refine writesStore_of_never fun s e h => ?_
  unfold decideFetchNotice at h
  try simp only [] at h
  repeat' split at h
  all_goals cases h

theorem decideVerdict_never (a : VerdictArgs) : WritesStore (decideVerdict a) := by
  refine writesStore_of_never fun s e h => ?_
  unfold decideVerdict at h
  try simp only [] at h
  repeat' split at h
  all_goals cases h

theorem decideCacheLoad_never (es : List CacheArgs) : WritesStore (decideCacheLoad es) := by
  refine writesStore_of_never fun s e h => ?_
  unfold decideCacheLoad at h
  try simp only [] at h
  repeat' split at h
  all_goals cases h

theorem decideCachePurge_never (w : BadgeOrAll) : WritesStore (decideCachePurge w) := by
  refine writesStore_of_never fun s e h => ?_
  unfold decideCachePurge at h
  try simp only [] at h
  repeat' split at h
  all_goals cases h

theorem decideSetClock_never (v : Word) : WritesStore (decideSetClock v) := by
  refine writesStore_of_never fun s e h => ?_
  unfold decideSetClock at h
  try simp only [] at h
  repeat' split at h
  all_goals cases h

theorem decideHoldDoor_never (z : Byte) : WritesStore (decideHoldDoor z) := by
  refine writesStore_of_never fun s e h => ?_
  unfold decideHoldDoor at h
  try simp only [] at h
  repeat' split at h
  all_goals cases h

theorem decideSecureDoor_never (z : Byte) : WritesStore (decideSecureDoor z) := by
  refine writesStore_of_never fun s e h => ?_
  unfold decideSecureDoor at h
  try simp only [] at h
  repeat' split at h
  all_goals cases h

theorem decideAckAlarm_never (w : AckArgs) : WritesStore (decideAckAlarm w) := by
  refine writesStore_of_never fun s e h => ?_
  unfold decideAckAlarm at h
  try simp only [] at h
  repeat' split at h
  all_goals cases h

theorem decideClearAlarm_never (w : ClearArgs) : WritesStore (decideClearAlarm w) := by
  refine writesStore_of_never fun s e h => ?_
  unfold decideClearAlarm at h
  try simp only [] at h
  repeat' split at h
  all_goals cases h

theorem decideRemoveOccupant_never (v : Word) : WritesStore (decideRemoveOccupant v) := by
  refine writesStore_of_never fun s e h => ?_
  unfold decideRemoveOccupant at h
  try simp only [] at h
  repeat' split at h
  all_goals cases h

theorem decideSweepAll_never : WritesStore decideSweepAll := by
  refine writesStore_of_never fun s e h => ?_
  unfold decideSweepAll at h
  try simp only [] at h
  repeat' split at h
  all_goals cases h

theorem decideDetect_never (z : Byte) (d : Byte) : WritesStore (ofZone z (decideDetect d)) := by
  refine ofZone_never z fun k s e h => ?_
  unfold decideDetect at h
  try simp only [] at h
  repeat' split at h
  all_goals cases h

theorem decideClearDetect_never (z : Byte) (d : Byte) : WritesStore (ofZone z (decideClearDetect d)) := by
  refine ofZone_never z fun k s e h => ?_
  unfold decideClearDetect at h
  try simp only [] at h
  repeat' split at h
  all_goals cases h

theorem decidePanelHold_never (z : Byte) (b : Bool) : WritesStore (ofZone z (decidePanelHold b)) := by
  refine ofZone_never z fun k s e h => ?_
  unfold decidePanelHold at h
  try simp only [] at h
  repeat' split at h
  all_goals cases h

theorem decideCancel_never (z : Byte) : WritesStore (ofZone z decideCancel) := by
  refine ofZone_never z fun k s e h => ?_
  unfold decideCancel at h
  try simp only [] at h
  repeat' split at h
  all_goals cases h

theorem decideForce_never (z : Byte) (b : Bool) : WritesStore (ofZone z (decideForce b)) := by
  refine ofZone_never z fun k s e h => ?_
  unfold decideForce at h
  try simp only [] at h
  repeat' split at h
  all_goals cases h

theorem decideVent_never (z : Byte) : WritesStore (ofZone z decideVent) := by
  refine ofZone_never z fun k s e h => ?_
  unfold decideVent at h
  try simp only [] at h
  repeat' split at h
  all_goals cases h

theorem decideRestore_never (z : Byte) : WritesStore (ofZone z decideRestore) := by
  refine ofZone_never z fun k s e h => ?_
  unfold decideRestore at h
  try simp only [] at h
  repeat' split at h
  all_goals cases h

theorem decideResolveZone_never (z : Byte) : WritesStore (ofZone z decideResolveZone) := by
  refine ofZone_never z fun k s e h => ?_
  unfold decideResolveZone at h
  try simp only [] at h
  all_goals cases h

theorem decideVerifyZone_never (z : Byte) (i : Byte) (f : Byte) : WritesStore (ofZone z (decideVerifyZone i f)) := by
  refine ofZone_never z fun k s e h => ?_
  unfold decideVerifyZone at h
  try simp only [] at h
  repeat' split at h
  all_goals cases h

/-! ### The commands that are no request and no event -/

theorem storeCommit_ends (s : State) : ∃ t, execStoreCommit s = .next t ∧ Ends s t := by
  unfold execStoreCommit; split
  · split
    · refine ⟨_, rfl, ?_⟩
      unfold commitHeld; simp only []; split
      · exact .inr (((store_frame s _).mono (by decide)).push (placeReply_frame _ _ _ _ _) (by decide))
      · exact (Ends.of_finishRequest s _ _).push (placeReply_frame _ _ _ _ _)
    · exact ⟨_, rfl, .of_frame (store_frame s _) (by decide)⟩
  · exact ⟨_, rfl, .of_frame (.refl [] s) (by decide)⟩

theorem collect_ends (p : PortId) (s : State) : Ends s (collect p s) := by
  unfold collect; simp only []; split
  · exact .of_frame (answerNow_frame _ _ _ _) (by decide)
  · split
    · exact .of_frame (l := [.ports, .passage]) (((setLink_frame _ _ _).mono (by decide)).push (heard_frame _ _) (by decide)) (by decide)
    · exact .of_frame (answerNow_frame _ _ _ _) (by decide)

theorem takeFrame_ends (p : PortId) (b : Byte) (k : FrameKind) (s : State) : Ends s (takeFrame p b s k) := by
  unfold takeFrame; split
  · exact .of_frame (answerNow_frame _ _ _ _) (by decide)
  · exact (Ends.of_finish s _ _).push (setLink_frame _ _ _)
  · exact collect_ends _ _
  · split
    · exact .of_frame (arrive_frame _ _ _) (by decide)
    · exact .of_frame (answerNow_frame _ _ _ _) (by decide)

theorem frameReceived_ends (p : PortId) (bytes : List Byte) (s : State) : ∃ t, execFrameReceived p bytes s = .next t ∧ Ends s t := by
  unfold execFrameReceived; split
  · exact ⟨_, rfl, takeFrame_ends _ _ _ _⟩
  · exact ⟨_, rfl, .of_frame (setLink_frame _ _ _) (by decide)⟩

theorem transactionEnd_ends (p : PortId) (s : State) : ∃ t, execTransactionEnd p s = .next t ∧ Ends s t := by
  unfold execTransactionEnd; split
  · exact ⟨_, rfl, .of_frame (setPort_frame _ _ _) (by decide)⟩
  · exact ⟨_, rfl, .of_frame (setLink_frame _ _ _) (by decide)⟩

/-! ### Every command -/

/-- Every command but RESET answers a next state, in one of the ways of `Ends`. -/
theorem exec_ends (c : Instr) (s : State) (h : c ≠ .reset) : ∃ t, exec c s = .next t ∧ Ends s t := by
  cases c with
  | reset => exact absurd rfl h
  | recordLoad _ =>
    show ∃ t, execRecordLoad _ s = .next t ∧ Ends s t
    unfold execRecordLoad
    exact event_ends _ _ _
  | frameReceived _ _ => exact frameReceived_ends _ _ s
  | transactionCutShort _ => exact ⟨_, rfl, .of_frame (setLink_frame _ _ _) (by decide)⟩
  | selectHeldTimeout _ => exact ⟨_, rfl, .of_finish _ _ _⟩
  | readZone _ _ => exact request_ends _ _ (readOfZone_never _ _) s
  | readRoster _ _ _ => exact request_ends _ _ (decideReadRoster_never _ _) s
  | readDoor _ _ => exact request_ends _ _ (decideReadDoor_never _) s
  | readAlarms _ _ => exact request_ends _ _ (decideReadAlarms_never _) s
  | readSuppression _ _ => exact request_ends _ _ (readOfZone_never _ _) s
  | readStatus _ => exact request_ends _ _ (decideReadStatus_never) s
  | readConfig _ _ => exact request_ends _ _ (decideReadConfig_never _) s
  | fetchNotice _ => exact request_ends _ _ (decideFetchNotice_never _) s
  | verdict _ _ => exact request_ends _ _ (decideVerdict_never _) s
  | cacheLoad _ _ => exact request_ends _ _ (decideCacheLoad_never _) s
  | cachePurge _ _ => exact request_ends _ _ (decideCachePurge_never _) s
  | setClock _ _ => exact request_ends _ _ (decideSetClock_never _) s
  | writeSchedule _ _ => exact request_ends _ _ (decideWrite_writesStore _) s
  | holdDoor _ _ => exact request_ends _ _ (decideHoldDoor_never _) s
  | secureDoor _ _ => exact request_ends _ _ (decideSecureDoor_never _) s
  | writePassageConfig _ _ => exact request_ends _ _ (decideWrite_writesStore _) s
  | detect _ _ _ => exact request_ends _ _ (decideDetect_never _ _) s
  | clearDetect _ _ _ => exact request_ends _ _ (decideClearDetect_never _ _) s
  | holdZone _ _ => exact request_ends _ _ (decidePanelHold_never _ _) s
  | unholdZone _ _ => exact request_ends _ _ (decidePanelHold_never _ _) s
  | cancel _ _ => exact request_ends _ _ (decideCancel_never _) s
  | forceRelease _ _ => exact request_ends _ _ (decideForce_never _ _) s
  | vent _ _ => exact request_ends _ _ (decideVent_never _) s
  | restore _ _ => exact request_ends _ _ (decideRestore_never _) s
  | isolate _ _ => exact request_ends _ _ (decideWrite_writesStore _) s
  | deisolate _ _ => exact request_ends _ _ (decideWrite_writesStore _) s
  | writeSuppressionConfig _ _ _ => exact request_ends _ _ (decideWrite_writesStore _) s
  | ackAlarm _ _ => exact request_ends _ _ (decideAckAlarm_never _) s
  | clearAlarm _ _ => exact request_ends _ _ (decideClearAlarm_never _) s
  | resolveZone _ _ => exact request_ends _ _ (decideResolveZone_never _) s
  | verifyZone _ _ _ _ => exact request_ends _ _ (decideVerifyZone_never _ _ _) s
  | removeOccupant _ _ => exact request_ends _ _ (decideRemoveOccupant_never _) s
  | lockdown _ _ => exact request_ends _ _ (decideWrite_writesStore _) s
  | endLockdown _ _ => exact request_ends _ _ (decideWrite_writesStore _) s
  | concurForce _ _ => exact request_ends _ _ (decideForce_never _ _) s
  | sweepAll _ => exact request_ends _ _ (decideSweepAll_never) s
  | excludeSweep _ _ => exact request_ends _ _ (decideWrite_writesStore _) s
  | includeSweep _ _ => exact request_ends _ _ (decideWrite_writesStore _) s
  | setService _ _ _ => exact request_ends _ _ (decideWrite_writesStore _) s
  | enableForceChord _ _ => exact request_ends _ _ (decideWrite_writesStore _) s
  | storeCommit => exact storeCommit_ends s
  | loopExchange _ =>
    show ∃ t, execLoopExchange _ s = .next t ∧ Ends s t
    unfold execLoopExchange
    exact event_ends _ _ _
  | stationReply _ _ =>
    show ∃ t, execStationReply _ _ s = .next t ∧ Ends s t
    unfold execStationReply
    exact event_ends _ _ _
  | replyWindowMiss _ =>
    show ∃ t, execReplyWindowMiss _ s = .next t ∧ Ends s t
    unfold execReplyWindowMiss
    exact event_ends _ _ _
  | loopBreak _ =>
    show ∃ t, execLoopBreak _ s = .next t ∧ Ends s t
    unfold execLoopBreak
    exact event_ends _ _ _
  | loopRestored _ =>
    show ∃ t, execLoopRestored _ s = .next t ∧ Ends s t
    unfold execLoopRestored
    exact event_ends _ _ _
  | queryTimeout _ =>
    show ∃ t, execQueryTimeout _ s = .next t ∧ Ends s t
    unfold execQueryTimeout
    exact event_ends _ _ _
  | cacheExpiry _ =>
    show ∃ t, execCacheExpiry _ s = .next t ∧ Ends s t
    unfold execCacheExpiry
    exact event_ends _ _ _
  | settleEnd _ =>
    show ∃ t, execSettleEnd _ s = .next t ∧ Ends s t
    unfold execSettleEnd
    exact event_ends _ _ _
  | queuedWaitExpiry _ =>
    show ∃ t, execQueuedWaitExpiry _ s = .next t ∧ Ends s t
    unfold execQueuedWaitExpiry
    exact event_ends _ _ _
  | railRoom _ =>
    show ∃ t, execRailRoom _ s = .next t ∧ Ends s t
    unfold execRailRoom
    exact event_ends _ _ _
  | boltTimerExpiry _ =>
    show ∃ t, execBoltTimerExpiry _ s = .next t ∧ Ends s t
    unfold execBoltTimerExpiry
    exact event_ends _ _ _
  | windowLapse _ =>
    show ∃ t, execWindowLapse _ s = .next t ∧ Ends s t
    unfold execWindowLapse
    exact event_ends _ _ _
  | heldOpenExpiry _ =>
    show ∃ t, execHeldOpenExpiry _ s = .next t ∧ Ends s t
    unfold execHeldOpenExpiry
    exact event_ends _ _ _
  | minuteBoundary =>
    show ∃ t, execMinuteBoundary s = .next t ∧ Ends s t
    unfold execMinuteBoundary
    exact event_ends _ _ _
  | loneWorkerDeadlineExpiry _ =>
    show ∃ t, execLoneWorkerDeadlineExpiry _ s = .next t ∧ Ends s t
    unfold execLoneWorkerDeadlineExpiry
    exact event_ends _ _ _
  | warningLeadReached _ =>
    show ∃ t, execWarningLeadReached _ s = .next t ∧ Ends s t
    unfold execWarningLeadReached
    exact event_ends _ _ _
  | warnCheckinResend _ =>
    show ∃ t, execWarnCheckinResend _ s = .next t ∧ Ends s t
    unfold execWarnCheckinResend
    exact event_ends _ _ _
  | pairExpired _ =>
    show ∃ t, execPairExpired _ s = .next t ∧ Ends s t
    unfold execPairExpired
    exact event_ends _ _ _
  | countdownExpiry _ =>
    show ∃ t, execCountdownExpiry _ s = .next t ∧ Ends s t
    unfold execCountdownExpiry
    exact event_ends _ _ _
  | confirmTimeout _ =>
    show ∃ t, execConfirmTimeout _ s = .next t ∧ Ends s t
    unfold execConfirmTimeout
    exact event_ends _ _ _
  | soakComplete _ =>
    show ∃ t, execSoakComplete _ s = .next t ∧ Ends s t
    unfold execSoakComplete
    exact event_ends _ _ _
  | forceWindowExpired =>
    show ∃ t, execForceWindowExpired s = .next t ∧ Ends s t
    unfold execForceWindowExpired
    exact event_ends _ _ _
  | sweepIntervalExpiry =>
    show ∃ t, execSweepIntervalExpiry s = .next t ∧ Ends s t
    unfold execSweepIntervalExpiry
    exact event_ends _ _ _
  | lineLevelTaken _ =>
    show ∃ t, execLineLevelTaken _ s = .next t ∧ Ends s t
    unfold execLineLevelTaken
    exact event_ends _ _ _
  | qualificationHoldExpiry _ =>
    show ∃ t, execQualificationHoldExpiry _ s = .next t ∧ Ends s t
    unfold execQualificationHoldExpiry
    exact event_ends _ _ _
  | chordQualifies =>
    show ∃ t, execChordQualifies s = .next t ∧ Ends s t
    unfold execChordQualifies
    exact event_ends _ _ _
  | sounderCadence _ =>
    show ∃ t, execSounderCadence _ s = .next t ∧ Ends s t
    unfold execSounderCadence
    exact event_ends _ _ _
  | candidateChange _ _ =>
    show ∃ t, execCandidateChange _ _ s = .next t ∧ Ends s t
    unfold execCandidateChange
    exact event_ends _ _ _
  | transactionEnd _ => exact transactionEnd_ends _ s

/-- Every command answers a next state: the model has no stop. -/
theorem exec_next (c : Instr) (s : State) : ∃ t, exec c s = .next t := by
  by_cases h : c = .reset
  · subst h; exact ⟨_, rfl⟩
  · exact (exec_ends c s h).imp fun _ k => k.1

theorem CountdownSafe.of_ends {s t : State} (h : Ends s t) (k : CountdownSafe s) : CountdownSafe t := by
  rcases h with ⟨b, u, f⟩ | f
  · exact (finish_countdownSafe b u).of_frame (f.mono (by decide))
  · exact k.of_frame (f.mono (by decide))

theorem OutputsSafe.of_ends {s t : State} (h : Ends s t) (k : OutputsSafe s) : OutputsSafe t := by
  rcases h with ⟨b, u, f⟩ | f
  · exact (finish_outputsSafe b u).of_frame (f.mono (by decide))
  · exact k.of_frame (f.mono (by decide))

end Sys2Proof.Machine
end

