-- ==== Sys2Proof/Laws/Numbered.lean ====
section
/-! SUPPORT. The numbering of the roster pool (R3): each operation keeps the entries' numbers apart, up to the end of a step. -/
namespace Sys2Proof.Machine
set_option Elab.async false -- one proof at a time keeps the threads of a compile few

/-- An operation keeps the entries' numbers apart. -/
def Numbers (s t : State) : Prop := PoolNumbered s → PoolNumbered t

/-! ### The calculus -/

theorem Numbers.refl (s : State) : Numbers s s := id
theorem Numbers.trans {s t u : State} (h : Numbers s t) (k : Numbers t u) : Numbers s u := k ∘ h
theorem Numbers.of_map {s t : State} (h : t.pool.map (·.number) = s.pool.map (·.number)) : Numbers s t := fun k => by
  rw [PoolNumbered, h]; exact k
theorem Numbers.of_frame {l : List Part} {s t : State} (h : SameBut l s t) (hn : Part.pool ∉ l := by decide) : Numbers s t :=
  .of_map (by rw [h.pool hn])
theorem Numbers.of_entries {s t : State} (h : SameEntries s t) : Numbers s t := .of_map (by
  have := congrArg (List.map fun c : EntryNo × Zone × Option Badge × Role × Location × Nat × Option Badge × Nat × Bool × Option Nat => c.1) h
  simpa [Entry.core, Function.comp_def] using this)
theorem Numbers.push {l : List Part} {s t u : State} (h : Numbers s t) (k : SameBut l t u) (hn : Part.pool ∉ l := by decide) :
    Numbers s u := h.trans (.of_frame k hn)
theorem Numbers.ite {s t u : State} {c : Prop} [Decidable c] (h : Numbers s t) (k : Numbers s u) : Numbers s (if c then t else u) := by
  split <;> assumption
theorem Numbers.foldl {α : Type} (f : State → α → State) (hf : ∀ s a, Numbers s (f s a)) (xs : List α) (s : State) :
    Numbers s (xs.foldl f s) := by
  induction xs generalizing s with
  | nil => exact .refl _
  | cons a xs ih => exact (hf s a).trans (ih _)

variable (s : State)

/-! ### Claims (R12 to R18) -/

theorem claimWith_numbers (b : Bool) (z : Zone) {f : State → State} (hf : Numbers s (f s)) : Numbers s (claimWith b z f s) :=
  hf.trans (.of_entries (sameEntries_claim b z f s))

theorem claim_numbers (z : Zone) {f : State → State} (hf : Numbers s (f s)) : Numbers s (claim z f s) := claimWith_numbers s false z hf

theorem amendEntries_numbers (z : Zone) {f : Entry → Entry} (hf : ∀ e, (f e).number = e.number) : Numbers s (amendEntries z f s) :=
  .of_map (by
    rw [pool_amendEntries, List.map_map]
    congr 1; funext e; simp only [Function.comp]; split
    · exact hf e
    · rfl)

theorem amendGroup_numbers (z : Zone) (sel : Entry → Bool) (g : Option Nat) : Numbers s (amendGroup z sel g s) :=
  amendEntries_numbers s z fun e => by split <;> rfl

theorem lowestFree_fresh {pool : List Entry} {n : EntryNo} (h : lowestFree pool = some n) : n ∉ pool.map (·.number) := by
  have := List.find?_some h
  simp only [List.all_eq_true, bne_iff_ne] at this
  intro hm
  obtain ⟨e, he, hn⟩ := List.mem_map.1 hm
  exact this e he hn

theorem createEntry_numbers {mk : EntryNo → Entry} (hm : ∀ n, (mk n).number = n) : Numbers s (createEntry mk s) := fun h => by
  unfold createEntry; split
  · rename_i n hn
    have hf := lowestFree_fresh hn
    simp only [PoolNumbered, List.map_append, List.map_cons, List.map_nil, hm]
    refine List.nodup_append.2 ⟨h, by simp, ?_⟩
    intro a ha b hb he
    simp at hb
    subst hb; subst he; exact hf ha
  · exact h

theorem filter_numbers (p : Entry → Bool) : Numbers s { s with pool := s.pool.filter p } := fun h =>
  List.Nodup.sublist (List.Sublist.map _ List.filter_sublist) h

theorem map_changeFirst (p : Entry → Bool) (f : Entry → Entry) (hf : ∀ e, (f e).number = e.number) (k : Nat) (es : List Entry) :
    (changeFirst p f k es).map (·.number) = es.map (·.number) := by
  induction es generalizing k with
  | nil => cases k <;> rfl
  | cons e es ih =>
    cases k with
    | zero => rfl
    | succ k => simp only [changeFirst]; split <;> simp [hf, ih]

theorem createAnonymous_numbers (z : Zone) (x : Location) : Numbers s (createAnonymous z x s) := by
  unfold createAnonymous
  exact .ite (claim_numbers s z (createEntry_numbers s fun _ => rfl)) (.of_frame (addReason_frame _ _ _))

theorem admitGroup_numbers (z : Zone) (g : Nat) (ms : List Member) : Numbers s (admitGroup z g ms s) :=
  claim_numbers s z (Numbers.foldl _ (fun t _ => createEntry_numbers t fun _ => rfl) _ _)

theorem relocate_numbers (z : Zone) (sel : Entry → Bool) (x y : Location) (g : GroupChange) (k : Nat) :
    Numbers s (relocate z sel x y g k s) := by
  unfold relocate
  exact .ite (claim_numbers s z (.of_map (by exact map_changeFirst _ _ (by exact fun _ => rfl) _ _))) (.refl _)

theorem removeEntries_numbers (z : Zone) (sel : Entry → Bool) : Numbers s (removeEntries z sel s) :=
  claim_numbers s z (filter_numbers s _)

theorem adjustHeadcount_numbers (z : Zone) (u d : Nat) : Numbers s (adjustHeadcount z u d s) := by
  unfold adjustHeadcount; simp only []
  exact .ite ((Numbers.of_frame (setZone_frame s _ _)).push (addReason_frame _ _ _))
    (.ite ((Numbers.of_frame (setZone_frame s _ _)).push (addReason_frame _ _ _)) (.of_frame (setZone_frame s _ _)))

theorem sweepResultClaim_numbers (z : Zone) (o : SweepOutcome) : Numbers s (sweepResultClaim z o s) :=
  claim_numbers s z (.of_frame (setZone_frame s _ _))

theorem addReason_numbers (z : Zone) (r : Reason) : Numbers s (addReason z r s) := .of_frame (addReason_frame _ _ _)

theorem createAnonymousMany_numbers (z : Zone) (x : Location) (k : Nat) : Numbers s (createAnonymousMany z x k s) := by
  induction k generalizing s with
  | zero => exact .refl _
  | succ k ih => exact (createEntry_numbers s (mk := anonymousEntry s z x) fun _ => rfl).trans (ih _)

theorem verifyCore_numbers (z : Zone) (i v : Nat) : Numbers s (verifyCore z i v s) := by
  unfold verifyCore; simp only []
  exact (((filter_numbers s _).trans (createAnonymousMany_numbers _ _ _ _)).trans (createAnonymousMany_numbers _ _ _ _)).push
    (setZone_frame _ _ _)

/-! ### The hours unit -/

theorem enterAfterHoursZone_numbers (z : Zone) : Numbers s (enterAfterHoursZone z s) := by
  unfold enterAfterHoursZone
  refine .ite (.refl _) ?_
  refine .push (amendEntries_numbers s z fun e => ?_) (evalWarning_frame _ _ _)
  split
  · split <;> rfl
  · rfl

theorem enterDayHoursZone_numbers (z : Zone) : Numbers s (enterDayHoursZone z s) := by
  unfold enterDayHoursZone
  refine .push (.push (amendEntries_numbers s z fun e => ?_) (clearPairing_frame _ _ _ _)) (evalWarning_frame _ _ _)
  rfl

theorem takeHours_numbers (h : HoursState) : Numbers s (takeHours h s) := by
  have h0 : Numbers s { s with hours.state := h } := .of_frame (hours_frame s _)
  have day (t : State) : Numbers t (allZones.foldl (fun u z => enterDayHoursZone z u) t) :=
    Numbers.foldl _ (fun u z => enterDayHoursZone_numbers u z) _ _
  have after (t : State) : Numbers t (allZones.foldl (fun u z => enterAfterHoursZone z u) t) :=
    Numbers.foldl _ (fun u z => enterAfterHoursZone_numbers u z) _ _
  unfold takeHours
  cases h
  · exact (h0.trans (day _)).push (endAlarms_frame _ _)
  · exact h0.trans (after _)

theorem evaluateHours_numbers (c : HoursCause) : Numbers s (evaluateHours c s) := by
  unfold evaluateHours; simp only []
  exact .ite (.refl _) ((takeHours_numbers s _).push (notify_frame _ _ _ _ _))

theorem setClock_numbers (v : Nat) : Numbers s (setClock v s) :=
  (Numbers.of_frame (hours_frame s _)).trans (evaluateHours_numbers _ _)

theorem deadlineExpires_numbers (e : Entry) (b : Badge) : Numbers s (deadlineExpires e b s) := by
  unfold deadlineExpires; simp only []
  exact ((amendEntries_numbers s _ fun x => by split <;> rfl).push (raiseAlarm_frame _ _ _ _)).push (evalWarning_frame _ _ _)

theorem checkIn_numbers (z : Zone) (b : Badge) : Numbers s (checkIn z b s) := by
  unfold checkIn; split
  · exact .of_frame (indicate_frame _ _ _ _)
  · simp only []
    exact .ite
      ((((amendEntries_numbers s z fun x => by split <;> rfl).push (endAlarm_frame _ _ _ _)).push (indicate_frame _ _ _ _)).push
        (evalWarning_frame _ _ _))
      ((amendEntries_numbers s z fun x => by split <;> rfl).push (indicate_frame _ _ _ _))

theorem overdueResolved_numbers (z : Zone) (bs : List Badge) (w : Bool) : Numbers s (overdueResolved z bs w s) := by
  unfold overdueResolved
  exact .ite ((amendEntries_numbers s z fun x => by split <;> rfl).push (evalWarning_frame _ _ _)) (.refl _)

/-! ### The passage unit -/

theorem denyPresentation_frame (p : Presentation) (x : Source) (r : PassageReason) :
    SameBut [.loops, .ports] s (denyPresentation p x r s) :=
  ((indicate_frame s _ _ _).mono (by decide)).push (noticePassage_frame _ _ _ _ _ _ _ _ _) (by decide)

theorem waitPresentation_frame (p : Presentation) (x : Source) : SameBut [.loops, .ports] s (waitPresentation p x s) :=
  ((indicate_frame s _ _ _).mono (by decide)).push (noticePassage_frame _ _ _ _ _ _ _ _ _) (by decide)

theorem cacheInsert_frame (e : CacheEntry) : SameBut [.passage] s (cacheInsert e s) := passage_frame _ _
theorem cacheRemove_frame (b : Badge) : SameBut [.passage] s (cacheRemove b s) := passage_frame _ _
theorem endQuery_frame (q : Byte) : SameBut [.passage] s (endQuery q s) := passage_frame _ _
theorem chooseGroup_frame (g : Nat) : SameBut [.passage] s (chooseGroup g s) := passage_frame _ _

theorem noteChoice_frame (x : Option Nat) (g : Nat) : SameBut [.passage] s (noteChoice x g s) := by
  unfold noteChoice; split
  · exact .refl _ _
  · exact chooseGroup_frame _ _

theorem indicatePolicy_frame (z : Zone) (x : Side) : SameBut [.loops] s (indicatePolicy z x s) := by
  unfold indicatePolicy; split
  · exact .refl _ _
  · split <;> exact indicate_frame _ _ _ _

theorem tellReader_frame (d : DoorId) (x : Side) (b : Badge) (p : Pattern) (o : Decided) (r : PassageReason) :
    SameBut [.loops, .ports] s (tellReader d x b p o r s) :=
  ((indicate_frame s _ _ _).mono (by decide)).push (noticePassage_frame _ _ _ _ _ _ _ _ _) (by decide)

theorem supersede_frame (z : Zone) (b : Bool) : SameBut [.passage, .loops, .ports] s (supersede z b s) := by
  unfold supersede; split
  · rename_i q _
    have h := ((endQuery_frame s q.id).mono (m := [.passage, .loops, .ports]) (by decide)).push
      (noticePassage_frame _ q.door q.badge .none .denied .superseded none [] (some q.id)) (by decide)
    simp only []; split
    · exact h.push (indicate_frame _ _ _ _) (by decide)
    · exact h
  · exact .refl _ _

theorem admitNew_numbers (p : Presentation) (x : Source) (ms : List Member) (g : Nat) : Numbers s (admitNew p x ms g s) := by
  unfold admitNew; simp only []
  refine (admitGroup_numbers s (zoneOf p.door) g ms).trans (.ite ?_ ?_)
  · exact (((Numbers.of_frame (setZonePassage_frame _ _ _)).push (attachRelease_frame _ _ _ _ _)).push (indicate_frame _ _ _ _)).push
      (noticePassage_frame _ _ _ _ _ _ _ _ _)
  · exact (removeEntries_numbers _ _ _).push (denyPresentation_frame _ _ _ _)

theorem admitJoin_numbers (p : Presentation) (x : Source) (ms : List Member) (g : Nat) : Numbers s (admitJoin p x ms g s) := by
  unfold admitJoin; simp only []
  refine (admitGroup_numbers s (zoneOf p.door) g ms).trans (.ite ?_ ?_)
  · exact ((Numbers.of_frame (windowRestart_frame _ _)).push (indicate_frame _ _ _ _)).push (noticePassage_frame _ _ _ _ _ _ _ _ _)
  · exact (removeEntries_numbers _ _ _).push (waitPresentation_frame _ _ _)

theorem admitClaim_numbers (p : Presentation) (x : Source) (ms : List Member) {f : State → State} (hf : Numbers s (f s)) :
    Numbers s (admitClaim p x ms f s) := by
  unfold admitClaim; split
  · exact .of_frame (denyPresentation_frame _ _ _ _)
  · exact hf

theorem admitMembers_numbers (p : Presentation) (x : Source) (ms : List Member) (d : Disposition) : Numbers s (admitMembers p x ms d s) := by
  unfold admitMembers; split
  · exact admitClaim_numbers _ _ _ _ (admitJoin_numbers _ _ _ _ _)
  · exact (Numbers.of_frame (chooseGroup_frame _ _)).trans (admitClaim_numbers _ _ _ _ (admitNew_numbers _ _ _ _ _))

theorem pairRule_numbers (p : Presentation) (x : Source) (g : Grant) (d : Disposition) : Numbers s (pairRule p x g d s) := by
  have wait (t : State) : Numbers t (noticePassage p.door p.badge x .pairWait .none none [] p.query (t.indicate (zoneOf p.door) .corridor .waitPair)) :=
    (Numbers.of_frame (indicate_frame _ _ _ _)).push (noticePassage_frame _ _ _ _ _ _ _ _ _)
  unfold pairRule; simp only []; split
  · exact ((Numbers.of_frame (setZone_frame s _ _)).push (setZonePassage_frame _ _ _)).trans (wait _)
  · exact .ite (wait _) ((Numbers.of_frame (dropPairing_frame s _)).trans (admitMembers_numbers _ _ _ _ _))

theorem decideGrant_numbers (p : Presentation) (x : Source) (g : Grant) : Numbers s (decideGrant p x g s) := by
  unfold decideGrant; split
  · exact .of_frame (waitPresentation_frame _ _ _)
  · exact .of_frame (denyPresentation_frame _ _ _ _)
  · split
    · exact .of_frame (denyPresentation_frame _ _ _ _)
    · exact .ite (pairRule_numbers _ _ _ _ _) (admitMembers_numbers _ _ _ _ _)

theorem cacheDecide_numbers (p : Presentation) : Numbers s (cacheDecide p s) := by
  unfold cacheDecide; split
  · exact .of_frame (denyPresentation_frame _ _ _ _)
  · exact (Numbers.of_frame (cacheInsert_frame _ _)).trans (decideGrant_numbers _ _ _ _)

theorem timeoutQuery_numbers (q : Query) : Numbers s (timeoutQuery q s) :=
  ((Numbers.of_frame (endQuery_frame s _)).push (passage_frame _ _)).trans (cacheDecide_numbers _ _)

theorem endAllQueries_numbers : Numbers s (endAllQueries s) :=
  Numbers.foldl _ (fun _ _ => (Numbers.of_frame (endQuery_frame _ _)).trans (cacheDecide_numbers _ _)) _ _

theorem raiseQuery_numbers (p : Presentation) : Numbers s (raiseQuery p s) := by
  unfold raiseQuery; simp only []
  refine .ite ?_ ((Numbers.of_frame (notify_frame s _ _ _ _)).trans (cacheDecide_numbers _ _))
  exact ((Numbers.of_frame (notify_frame s _ _ _ _)).push (passage_frame _ _)).push (indicate_frame _ _ _ _)

theorem entryPresentation_numbers (p : Presentation) : Numbers s (entryPresentation p s) := by
  unfold entryPresentation; simp only []
  refine Numbers.trans (t := if p.terminator = .duress then raiseAlarm .duress (some (zoneOf p.door)) (.badge p.badge) s else s)
    (.ite (.of_frame (raiseAlarm_frame _ _ _ _)) (.refl _)) ?_
  refine .ite ((Numbers.of_frame (indicatePolicy_frame _ _ _)).push (noticePassage_frame _ _ _ _ _ _ _ _ _)) ?_
  exact .ite (.of_frame (waitPresentation_frame _ _ _)) (.ite (cacheDecide_numbers _ _) (raiseQuery_numbers _ _))

theorem requestOuterEgress_frame (z : Zone) : SameBut [.doors, .passage, .loops] s (requestOuterEgress z s) := by
  unfold requestOuterEgress; simp only []; split
  · exact ((setZonePassage_frame s _ _).mono (by decide)).push (attachRelease_frame _ _ _ _ _) (by decide)
  · exact .refl _ _

theorem setPendingOuter_frame (z : Zone) : SameBut [.doors, .passage, .loops] s (setPendingOuter z s) :=
  ((setZonePassage_frame s _ _).mono (by decide)).push (requestOuterEgress_frame _ _) (by decide)

theorem offerCycle_frame (z : Zone) : SameBut [.doors, .passage, .loops] s (offerCycle z s) := by
  have h : SameBut [.doors, .passage, .loops] s (pruneZone z s) := (pruneZone_frame s z).mono (by decide)
  unfold offerCycle; simp only []; split
  · exact h.push (setZonePassage_frame _ _ _) (by decide)
  · split
    · exact h
    · split
      · exact (h.push (setZonePassage_frame _ _ _) (by decide)).push (attachRelease_frame _ _ _ _ _) (by decide)
      · exact h.push (setZonePassage_frame _ _ _) (by decide)
      · exact h.push (setZonePassage_frame _ _ _) (by decide)

theorem groupEnters_numbers (z : Zone) (g : Nat) : Numbers s (groupEnters z g s) := by
  unfold groupEnters; split <;> exact (relocate_numbers s _ _ _ _ _ _).push (setZonePassage_frame _ _ _)

theorem outerPassageEnds_numbers (z : Zone) (g : Nat) (o : Bool) (e : ReleaseEnd) (l : Bool) :
    Numbers s (outerPassageEnds z g o e l s) := by
  unfold outerPassageEnds; simp only []; split
  · split
    · exact .of_frame (offerCycle_frame _ _)
    · exact .ite ((Numbers.ite (.refl _) (addReason_numbers _ _ _)).push (setZonePassage_frame _ _ _)) (.refl _)
    · exact .refl _
  · have h : Numbers s (dropEntryGroup z (some g) (if e = .abandoned ∧ l = true then s else removeAdmitted z g s)) :=
      (Numbers.ite (.refl _) (removeEntries_numbers _ _ _)).push (setZonePassage_frame _ _ _)
    exact .ite (h.push (indicate_frame _ _ _ _)) h

theorem tailgates_numbers (z : Zone) (k : Nat) : Numbers s (tailgates z k s) := by
  induction k generalizing s with
  | zero => exact .refl _
  | succ k ih => exact ((createAnonymous_numbers s _ _).push (raiseAlarm_frame _ _ _ _)).trans (ih _)

theorem settleInbound_numbers (z : Zone) (g : Nat) : Numbers s (settleInbound z g s) := by
  unfold settleInbound; simp only []
  have h := relocate_numbers s z (fun e => e.group == some g) .vestibule .inner .remove 96
  generalize relocate z (fun e => e.group == some g) .vestibule .inner .remove 96 s = t at h ⊢
  have k := h.push (setZonePassage_frame t z
    { t.zonePassage z with vestibuleGroup := dropGroup (t.zonePassage z).vestibuleGroup (some g) })
  exact .ite (k.trans (addReason_numbers _ _ _)) (k.trans (tailgates_numbers _ _ _))

theorem moveOutbound_numbers (z : Zone) (g : Option Nat) (n : Nat) : Numbers s (moveOutbound z g n s) := by
  unfold moveOutbound; simp only []
  refine .trans ?_ (.ite (.refl _) (.of_frame (setPendingOuter_frame _ _)))
  refine .trans ?_ (.ite (addReason_numbers _ _ _) (.refl _))
  refine .trans ?_ (.ite (.refl _) (relocate_numbers _ _ _ _ _ _ _))
  refine .trans ?_ (.ite ((addReason_numbers _ _ _).trans (amendGroup_numbers _ _ _ _)) (.refl _))
  exact .ite (.refl _) (relocate_numbers _ _ _ _ _ _ _)

theorem settleOutbound_numbers (z : Zone) (g : Option Nat) : Numbers s (settleOutbound z g s) := by
  unfold settleOutbound; simp only []
  exact (Numbers.ite (addReason_numbers _ _ _) (moveOutbound_numbers _ _ _ _)).push (setZonePassage_frame _ _ _)

theorem unopenedCrossings_numbers (z : Zone) : Numbers s (unopenedCrossings z s) := by
  unfold unopenedCrossings; simp only []
  exact .ite (.refl _) ((Numbers.of_frame (setZonePassage_frame _ _ _)).trans (addReason_numbers _ _ _))

theorem innerPassageEnds_numbers (z : Zone) (g : Nat) (o : Bool) (e : ReleaseEnd) : Numbers s (innerPassageEnds z g o e s) := by
  unfold innerPassageEnds; simp only []
  refine .ite (.ite ?_ (settleInbound_numbers _ _ _)) (.ite ?_ ?_)
  · exact (Numbers.of_frame (setZonePassage_frame _ _ _)).trans (addReason_numbers _ _ _)
  · exact (Numbers.of_frame (setZonePassage_frame _ _ _)).push (indicate_frame _ _ _ _)
  · exact .of_frame (setZonePassage_frame _ _ _)

theorem innerEgressEnds_numbers (z : Zone) (g : Option Nat) (o : Bool) (e : ReleaseEnd) : Numbers s (innerEgressEnds z g o e s) := by
  unfold innerEgressEnds; simp only []
  refine .ite (.ite ?_ (settleOutbound_numbers _ _ _)) (.refl _)
  exact ((addReason_numbers s _ _).trans (amendGroup_numbers _ _ _ _)).push (setZonePassage_frame _ _ _)

theorem releaseEnded_numbers (d : DoorId) (r : Release) (o : ReleaseEnd) (l : Bool) : Numbers s (releaseEnded d r o l s) := by
  unfold releaseEnded; simp only []; split
  · split
    · exact outerPassageEnds_numbers _ _ _ _ _ _
    · exact .ite ((removeEntries_numbers _ _ _).push (setZonePassage_frame _ _ _)) (.refl _)
    · exact .refl _
  · have h : Numbers s (if (!r.opened && r.origin != .master && o.moved) = true then unopenedCrossings (zoneOf d) s else s) :=
      .ite (unopenedCrossings_numbers _ _) (.refl _)
    split
    · exact h.trans (innerPassageEnds_numbers _ _ _ _ _)
    · exact h.trans (innerEgressEnds_numbers _ _ _ _ _)
    · exact h

theorem doorSecured_frame (d : DoorId) : SameBut [.doors, .passage, .loops] s (doorSecured d s) := by
  unfold doorSecured; simp only []; split
  · exact requestOuterEgress_frame _ _
  · split
    · exact offerCycle_frame _ _
    · exact .refl _ _

theorem rexPress_frame (d : DoorId) : SameBut [.doors, .passage, .loops] s (rexPress d s) := by
  unfold rexPress; simp only []; split
  · exact attachRelease_frame _ _ _ _ _
  · split
    · exact (windowRestart_frame s _).mono (by decide)
    · exact .refl _ _

theorem vestibuleReader_numbers (z : Zone) (b : Badge) : Numbers s (vestibuleReader z b s) := by
  unfold vestibuleReader; simp only []; split
  · exact .of_frame (tellReader_frame _ _ _ _ _ _ _)
  · refine .ite (.ite ?_ ?_) (.ite ?_ ?_)
    · exact ((amendGroup_numbers _ _ _ _).push (windowRestart_frame _ _)).push (tellReader_frame _ _ _ _ _ _ _)
    · exact .of_frame (tellReader_frame _ _ _ _ _ _ _)
    · refine .trans ?_ (.ite
        ((Numbers.of_frame (attachRelease_frame _ _ _ _ _)).push (tellReader_frame _ _ _ _ _ _ _))
        ((Numbers.of_frame (indicatePolicy_frame _ _ _)).push (noticePassage_frame _ _ _ _ _ _ _ _ _)))
      exact ((Numbers.of_frame (noteChoice_frame s _ _)).trans (amendGroup_numbers _ _ _ _)).push (setZonePassage_frame _ _ _)
    · exact .of_frame (tellReader_frame _ _ _ _ _ _ _)

theorem vaultReader_numbers (z : Zone) (b : Badge) : Numbers s (vaultReader z b s) := by
  unfold vaultReader; simp only []; split
  · exact .of_frame (rexPress_frame _ _)
  · refine .ite (.ite ?_ ?_) (.ite ?_ ?_)
    · exact (((((Numbers.of_frame (noteChoice_frame s _ _)).trans (amendGroup_numbers _ _ _ _)).push (setZonePassage_frame _ _ _)).push
        (groupSet_frame _ _ _)).push (windowRestart_frame _ _)).push (tellReader_frame _ _ _ _ _ _ _)
    · exact .of_frame (tellReader_frame _ _ _ _ _ _ _)
    · exact ((((Numbers.of_frame (chooseGroup_frame s _)).trans (amendGroup_numbers _ _ _ _)).push (setZonePassage_frame _ _ _)).push
        (attachRelease_frame _ _ _ _ _)).push (tellReader_frame _ _ _ _ _ _ _)
    · exact .of_frame (tellReader_frame _ _ _ _ _ _ _)

theorem settleMaster_numbers (z : Zone) (b : Bool) : Numbers s (settleMaster z b s) := by
  unfold settleMaster
  exact .ite (createAnonymous_numbers _ _ _) (.ite (relocate_numbers _ _ _ _ _ _ _) (addReason_numbers _ _ _))

theorem beamCrossing_numbers (z : Zone) (b : Bool) : Numbers s (beamCrossing z b s) := by
  unfold beamCrossing; simp only []
  have h : Numbers s (if b = true then adjustHeadcount z 1 0 s else adjustHeadcount z 0 1 s) :=
    .ite (adjustHeadcount_numbers _ _ _ _) (adjustHeadcount_numbers _ _ _ _)
  split
  · exact h.trans (.ite (settleMaster_numbers _ _ _) (.of_frame (setZonePassage_frame _ _ _)))
  · exact h.trans (addReason_numbers _ _ _)

theorem evacuationPassage_numbers (z : Zone) : Numbers s (evacuationPassage z s) := by
  unfold evacuationPassage; simp only []
  refine .push (.push (.push (Numbers.trans ((((removeEntries_numbers s _ _).push (setZonePassage_frame _ _ _)).push
    (supersede_frame _ _ _)).push (dropPairing_frame _ _)) (.ite (.of_frame (setPendingOuter_frame _ _)) (.refl _)))
    (indicate_frame _ _ _ _)) (indicate_frame _ _ _ _)) (indicate_frame _ _ _ _)

theorem evacuationOver_frame (z : Zone) : SameBut [.loops] s (evacuationOver z s) :=
  ((indicate_frame s _ _ _).trans (indicate_frame _ _ _ _)).trans (indicate_frame _ _ _ _)

/-! ### The sweep unit -/

theorem applyResult_frame (z : Zone) (r : SweepOutcome) : SameBut [.zones, .alarms] s (applyResult z r s) := by
  have h (n : Nat) : SameBut [.zones, .alarms] s (setDeferrals z n s) := (setZone_frame s _ _).mono (by decide)
  have b : SameBut [.zones, .alarms] s (if (s.zone z).inService = true then bumpDeferral z s else s) := by
    split
    · exact bumpDeferral_frame _ _
    · exact .refl _ _
  cases r
  · exact .refl _ _
  · exact (h 0).push (endAlarms_frame _ _) (by decide)
  · exact (h 0).push (raiseAlarm_frame _ _ _ _) (by decide)
  · exact h 0
  · exact b
  · exact b

/-- What going on with a sweep-all can change (R160). -/
def sweepNextParts : List Part := [.sweep, .doors, .zones, .loops, .alarms]

theorem sweepNext_frame (zs : List Zone) : SameBut sweepNextParts s (sweepNext zs s) := by
  induction zs generalizing s with
  | nil => exact (sweep_frame s _).mono (by decide)
  | cons z rest ih =>
    have h : SameBut sweepNextParts s { s with sweep.allList := if rest = [] then none else some rest } := (sweep_frame s _).mono (by decide)
    unfold sweepNext; simp only []
    generalize ({ s with sweep.allList := if rest = [] then none else some rest } : State) = t at h ⊢
    have k : SameBut sweepNextParts t (startSweep z .sweepAll t) := (startSweep_frame t z .sweepAll).mono (by decide)
    split
    · exact h.trans (ih _)
    · split
      · split
        · exact h.trans k
        · exact (h.trans k).trans (ih _)
      · exact (h.push (deferSweep_frame _ _ _) (by decide)).trans (ih _)

theorem endDoorSweep_frame (z : Zone) : SameBut [.doors] s (endDoorSweep z s) :=
  (setUnderSweep_frame s _ _).push (handOnFirst_frame _ _) (by decide)

theorem endSweep_numbers (r : SweepRec) (o : SweepOutcome) : Numbers s (endSweep r o s) := by
  unfold endSweep; simp only []
  have h := (((sweepResultClaim_numbers s r.zone o).push (applyResult_frame _ r.zone o)).push
    (sweep_frame _ { (applyResult r.zone o (sweepResultClaim r.zone o s)).sweep with inProgress := none })).push
    (noticeSweep_frame _ r.zone (some o) r.kind (some r))
  generalize noticeSweep r.zone (some o) r.kind (some r)
    { applyResult r.zone o (sweepResultClaim r.zone o s) with sweep.inProgress := none } = t at h ⊢
  have k : Numbers s (if o = .abandoned then t else endDoorSweep r.zone t) := .ite h (h.push (endDoorSweep_frame _ _))
  split
  · exact k.push (sweepNext_frame _ _)
  · exact k

theorem sweepReply_numbers (d : DoorId) (x : SweepReply) (f : Option Reconciled) : Numbers s (sweepReply d x f s) := by
  unfold sweepReply; split
  · split
    · simp only []; split
      · exact (Numbers.of_frame (sweep_frame s _)).trans (endSweep_numbers _ _ _)
      · exact .of_frame (sweep_frame s _)
    · exact .refl _
  · exact .refl _

theorem sweepFail_numbers (d : DoorId) : Numbers s (sweepFail d s) := by
  unfold sweepFail; split
  · rename_i r _
    by_cases h : r.zone = zoneOf d ∧ (if isOuter d then r.outer else r.inner).isNone
    · rw [if_pos h]; exact endSweep_numbers _ _ _
    · rw [if_neg h]; exact .refl _
  · exact .refl _

theorem sweepAbandonedOf_numbers (z : Zone) : Numbers s (sweepAbandonedOf z s) := by
  unfold sweepAbandonedOf; split
  · exact .ite (endSweep_numbers _ _ _) (.refl _)
  · exact .refl _

theorem setBaseline_frame (z : Zone) (i o : Nat) : SameBut [.loops, .sweep] s (setBaseline z i o s) :=
  ((setSlot_frame s _ _ _).mono (by decide)).push (sweep_frame _ _) (by decide)

theorem reconcile_numbers (z : Zone) (i o : Nat) (b : Bool) : Numbers s (reconcile z i o b s) := by
  unfold reconcile; simp only []
  refine .push ?_ (setBaseline_frame _ _ _ _)
  split
  · exact .refl _
  · rename_i a c _
    have h := adjustHeadcount_numbers s z a c
    exact .ite (h.trans (addReason_numbers _ _ _)) h
  · exact addReason_numbers _ _ _

theorem countBeam_frame (z : Zone) (b : Bool) : SameBut [.sweep] s (countBeam z b s) := by
  unfold countBeam; split <;> exact sweep_frame _ _

/-! ### The hand-ons and the end of a step -/

theorem takeHandOn_numbers (h : HandOn) : Numbers s (takeHandOn h s) := by
  cases h with
  | reevaluate z => exact .of_frame (evaluateZone_frame _ _)
  | certainty z c => exact .of_frame (takeCertainty_frame _ _ _)
  | evacuationEntered z =>
    exact ((Numbers.of_frame (cutZone_frame s z)).push (handOnFirst_frame _ _)).trans (evacuationPassage_numbers _ _)
  | evacuationLeft z => exact (Numbers.of_frame (evaluateAfterEvacuation_frame s z)).push (evacuationOver_frame _ _)
  | threw d g =>
    simp only [takeHandOn]; split
    · exact .ite (groupEnters_numbers _ _ _) (.refl _)
    · exact .refl _
  | lapse d g =>
    simp only [takeHandOn]; split
    · exact .ite (removeEntries_numbers _ _ _) (.refl _)
    · exact .refl _
  | released d r o l => exact releaseEnded_numbers _ _ _ _ _
  | secured d => exact .of_frame (doorSecured_frame _ _)
  | sweepAbandoned z => exact sweepAbandonedOf_numbers _ _

theorem settle_numbers (k : Nat) : Numbers s (settle k s) := by
  induction k generalizing s with
  | zero => exact .refl _
  | succ k ih =>
    unfold settle; split
    · exact .refl _
    · exact ((Numbers.of_frame (.of_work [] s _)).trans (takeHandOn_numbers _ _)).trans (ih _)

theorem finishWith_numbers (f : List DueNotice → List DueNotice) (b : State) : Numbers s (finishWith f b s) :=
  (settle_numbers s Config.handOnBound).push (finishWith_frame f b s)

theorem finish_numbers (b : State) : Numbers s (finish b s) := finishWith_numbers s id b

theorem refreshAll_frame : SameBut holdParts s (allZones.foldl (fun t z => refreshHolds z t) s) :=
  foldl_frame _ (fun _ _ => refreshHolds_frame _ _) _ _

theorem endEvent_numbers : Numbers s (endEvent s) := (settle_numbers s Config.handOnBound).push (refreshAll_frame _)

end Sys2Proof.Machine
end

