-- ==== Sys2Proof/Laws/Reports.lean ====
section
/-! SUPPORT. What the reports of the stations, the loops' changes and the commits of the store can change, and that they keep the pool's
numbering (R3). -/
namespace Sys2Proof.Machine
set_option Elab.async false -- one proof at a time keeps the threads of a compile few

variable (s : State)

/-- What a door report can change (R33 to R42). -/
def doorParts : List Part := [.doors, .zones, .alarms, .loops]

/-! ### Door reports -/

theorem forcedEffects_frame (d : DoorId) : SameBut doorParts s (forcedEffects d s) :=
  (((setDoor_frame s d _).mono (by decide)).push (raiseAlarm_frame _ _ _ _) (by decide)).push (addReason_frame _ _ _) (by decide)

theorem enterFault_doorParts (d : DoorId) (o : Option ReleaseEnd) : SameBut doorParts s (enterFault d o s) :=
  (enterFault_frame s d o).mono (by decide)
theorem enterOpen_doorParts (d : DoorId) (o : Option ReleaseEnd) : SameBut doorParts s (enterOpen d o s) :=
  (enterOpen_frame s d o).mono (by decide)
theorem enterThrowing_doorParts (d : DoorId) : SameBut doorParts s (enterThrowing d s) := (enterThrowing_frame s d).mono (by decide)
theorem enterSecured_doorParts (d : DoorId) : SameBut doorParts s (enterSecured d s) := (enterSecured_frame s d).mono (by decide)
theorem judgeTravel_doorParts (d : DoorId) (n : Nat) : SameBut doorParts s (judgeTravel d n s) := (judgeTravel_frame s d n).mono (by decide)
theorem setDoor_doorParts (d : DoorId) (x : Door) : SameBut doorParts s (s.setDoor d x) := (setDoor_frame s d x).mono (by decide)
theorem detachRelease_doorParts (d : DoorId) (o : ReleaseEnd) (b : Bool) : SameBut doorParts s (detachRelease d o b s) :=
  (detachRelease_frame s d o b).mono (by decide)
theorem doorNotice_doorParts (d : DoorId) (o : Option ReleaseEnd) : SameBut doorParts s (doorNotice d o s) :=
  (doorNotice_frame s d o).mono (by decide)
theorem handOnFirst_doorParts (h : HandOn) : SameBut doorParts s (s.handOnFirst h) := (handOnFirst_frame s h).mono (by decide)

theorem SameBut.ite {l : List Part} {s t u : State} {c : Prop} [Decidable c] (h : SameBut l s t) (k : SameBut l s u) :
    SameBut l s (if c then t else u) := by
  split <;> assumption

theorem forceOpen_frame (d : DoorId) : SameBut doorParts s (forceOpen d s) := by
  unfold forceOpen; simp only []
  have h := (detachRelease_doorParts s d .cancelled false).trans (forcedEffects_frame _ d)
  exact .ite (h.trans (enterFault_doorParts _ _ _)) (h.trans (enterOpen_doorParts _ _ _))

theorem contactOpen_frame (d : DoorId) : SameBut doorParts s (contactOpen d s) := by
  unfold contactOpen; simp only []
  have h := setDoor_doorParts s d { s.door d with contact := .opened }
  generalize s.setDoor d { s.door d with contact := .opened } = t at h ⊢
  split
  · exact h.trans (enterOpen_doorParts _ _ _)
  · exact h.trans (enterOpen_doorParts _ _ _)
  · exact (h.trans (setDoor_doorParts _ _ _)).trans (enterOpen_doorParts _ _ _)
  · exact h.trans (forceOpen_frame _ _)
  · exact h.trans (forceOpen_frame _ _)
  · refine .trans ?_ (.ite (enterFault_doorParts _ _ _) (enterOpen_doorParts _ _ _))
    exact h.trans (setDoor_doorParts _ _ _)
  · exact h
  · exact .ite h ((h.trans (forcedEffects_frame _ _)).trans (doorNotice_doorParts _ _ _))

theorem contactClosed_frame (d : DoorId) : SameBut doorParts s (contactClosed d s) := by
  unfold contactClosed; simp only []
  have h := (setDoor_doorParts s d { s.door d with contact := .closed }).push
    (endAlarm_frame _ .doorHeld (some (zoneOf d)) (.door d)) (by decide)
  generalize endAlarm .doorHeld (some (zoneOf d)) (.door d) (s.setDoor d { s.door d with contact := .closed }) = t at h ⊢
  split
  · exact .ite (h.trans (enterThrowing_doorParts _ _))
      (((h.trans (setDoor_doorParts _ _ _)).trans (doorNotice_doorParts _ _ _)).trans (handOnFirst_doorParts _ _))
  · exact h.push (giveDoorCmd_frame _ _ _) (by decide)
  · exact h

theorem boltArrived_frame (d : DoorId) : SameBut doorParts s (boltArrived d s) := by
  unfold boltArrived; simp only []
  split
  · exact .ite (enterThrowing_doorParts _ _)
      (((setDoor_doorParts _ _ _).trans (doorNotice_doorParts _ _ _)).trans (handOnFirst_doorParts _ _))
  · exact enterThrowing_doorParts _ _

theorem boltStray_frame (d : DoorId) : SameBut doorParts s (boltStray d s) :=
  (detachRelease_doorParts s d .cancelled false).trans (enterFault_doorParts _ d _)

theorem boltReport_frame (d : DoorId) (w : Bool) (n : Nat) : SameBut doorParts s (boltReport d w n s) := by
  unfold boltReport; simp only []
  have h := (setDoor_doorParts s d { s.door d with bolt := if w then .withdrawn else .thrown, travel := n }).trans
    (judgeTravel_doorParts _ d n)
  generalize judgeTravel d n _ = t at h ⊢
  have k : SameBut doorParts s (if (t.door d).contact = .closed then enterSecured d t else t) :=
    .ite (h.trans (enterSecured_doorParts _ _)) h
  split
  · exact h.trans (boltArrived_frame _ _)
  · exact h.trans (boltStray_frame _ _)
  · exact h.trans (boltStray_frame _ _)
  · exact k
  · exact k
  · exact h

theorem statusReport_frame (d : DoorId) (o w : Bool) (n : Nat) : SameBut doorParts s (statusReport d o w n s) := by
  unfold statusReport; simp only []
  have h := (setDoor_doorParts s d
    { s.door d with contact := if o then .opened else .closed, bolt := if w then .withdrawn else .thrown, travel := n }).trans
    (judgeTravel_doorParts _ d n)
  generalize judgeTravel d n _ = t at h ⊢
  have k := h.trans (enterSecured_doorParts _ d)
  split
  · refine .ite k (.trans ?_
      (.ite (enterFault_doorParts _ _ _) (.ite (enterOpen_doorParts _ _ _) (enterThrowing_doorParts _ _))))
    exact h.trans (setDoor_doorParts _ _ _)
  · exact .ite k h
  · exact h

theorem stationLost_frame (d : DoorId) : SameBut [.doors, .zones] s (stationLost d s) := by
  have un (o : Option ReleaseEnd) (t : State) : SameBut [.doors, .zones] t ((doorNotice d o
      (t.setDoor d { t.door d with state := .unverified, contact := .unknown, bolt := .unknown, boltTimer := none,
                                   heldOpen := none })).handOnFirst (.reevaluate (zoneOf d))) :=
    (((setDoor_frame t d _).mono (by decide)).push (doorNotice_frame _ _ _) (by decide)).push (handOnFirst_frame _ _) (by decide)
  have dt (o : ReleaseEnd) (b : Bool) : SameBut [.doors, .zones] s (detachRelease d o b s) :=
    (detachRelease_frame s d o b).mono (by decide)
  unfold stationLost; simp only []
  split
  · exact ((dt _ _).trans (un _ _)).push (addReason_frame _ _ _) (by decide)
  · exact ((dt _ _).trans (un _ _)).push (addReason_frame _ _ _) (by decide)
  · exact ((dt _ _).trans (un _ _)).push (addReason_frame _ _ _) (by decide)
  · exact ((dt _ _).trans (un _ _)).push (addReason_frame _ _ _) (by decide)
  · exact (dt _ _).trans (un _ _)
  · exact un _ _
  · exact un _ _
  · exact (setDoor_frame s d _).mono (by decide)

/-! ### The loops -/

theorem noticeSlot_frame (l : LoopId) (a : SlotId) (c : SlotCause) : SameBut [] s (noticeSlot l a c s) := dueNotice_frame _ _
theorem noticeLoop_frame (l : LoopId) (b : Bool) (x : List SlotId) : SameBut [] s (noticeLoop l b x s) := dueNotice_frame _ _
theorem discardCmds_frame (l : LoopId) (a : SlotId) : SameBut [.loops] s (discardCmds l a s) := setLoop_frame _ _ _
theorem endExchange_frame (l : LoopId) : SameBut [.loops] s (endExchange l s) := setLoop_frame _ _ _
theorem completeCmd_frame (l : LoopId) : SameBut [.loops] s (completeCmd l s) := setLoop_frame _ _ _

theorem beginExchange_frame (l : LoopId) : SameBut [.loops] s (beginExchange l s) := by
  unfold beginExchange; simp only []; split
  · exact setLoop_frame _ _ _
  · exact .refl _ _

theorem setTamper_frame (l : LoopId) (a : SlotId) (b : Bool) : SameBut [.loops, .alarms] s (setTamper l a b s) := by
  unfold setTamper; simp only []
  refine .ite (.refl _ _) (.push ?_ (noticeSlot_frame _ _ _ _) (by decide))
  have h (x : Slot) : SameBut [.loops, .alarms] s (s.setSlot l a x) := (setSlot_frame s l a x).mono (by decide)
  exact .ite ((h _).push (raiseAlarm_frame _ _ _ _) (by decide)) (.ite ((h _).push (endAlarm_frame _ _ _ _) (by decide)) (h _))

theorem goOnline_frame (l : LoopId) (a : SlotId) : SameBut [.loops, .alarms] s (goOnline l a s) :=
  (((setSlot_frame s l a _).mono (by decide)).push (giveCmd_frame _ _ _ _) (by decide)).push (endAlarm_frame _ _ _ _) (by decide)
    |>.push (noticeSlot_frame _ _ _ _) (by decide)

theorem restoreLoop_frame (l : LoopId) : SameBut [.loops, .alarms] s (restoreLoop l s) :=
  (((setLoop_frame s l _).mono (by decide)).push (endAlarm_frame _ _ _ _) (by decide)).push (noticeLoop_frame _ _ _ _) (by decide)

theorem goOffline_numbers (l : LoopId) (a : SlotId) : Numbers s (goOffline l a s) := by
  unfold goOffline; simp only []
  exact ((((Numbers.of_frame (setSlot_frame s l a _)).push (discardCmds_frame _ _ _)).push (stationLost_frame _ _)).trans
    (sweepFail_numbers _ _)).push (raiseAlarm_frame _ _ _ _) |>.push (noticeSlot_frame _ _ _ _)

theorem countMiss_numbers (l : LoopId) (a : SlotId) : Numbers s (countMiss l a s) := by
  unfold countMiss; simp only []
  have h (x : Slot) : Numbers s (s.setSlot l a x) := .of_frame (setSlot_frame s l a x)
  split
  · split
    · exact (h _).trans (goOffline_numbers _ _ _)
    · exact ((h _).push (raiseAlarm_frame _ _ _ _)).push (noticeSlot_frame _ _ _ _)
    · exact h _
  · exact h _

theorem missExchange_numbers (l : LoopId) (x : Exchange) : Numbers s (missExchange l x s) :=
  (Numbers.of_frame (endExchange_frame s l)).trans (countMiss_numbers _ _ _)

theorem noBadge_frame (d : DoorId) (x : Side) (b : Badge) (t : Terminator) : SameBut [.loops, .alarms, .ports] s (noBadge d x b t s) := by
  unfold noBadge; simp only []
  have h : SameBut [.loops, .alarms, .ports] s (if t = .duress ∧ x = .corridor then raiseAlarm .duress (some (zoneOf d)) .none s else s) :=
    .ite ((raiseAlarm_frame s _ _ _).mono (by decide)) (.refl _ _)
  exact (h.push (indicate_frame _ _ _ _) (by decide)).push (noticePassage_frame _ _ _ _ _ _ _ _ _) (by decide)

theorem takeBadge_numbers (d : DoorId) (x : Side) (b : Badge) (i : Bool) (t : Terminator) (ds : List Nat) :
    Numbers s (takeBadge d x b i t ds s) := by
  unfold takeBadge; simp only []; split
  · exact .of_frame (noBadge_frame _ _ _ _ _)
  · split
    · exact entryPresentation_numbers _ _
    · exact vestibuleReader_numbers _ _ _
    · exact .ite (checkIn_numbers _ _ _) (vaultReader_numbers _ _ _)

theorem takeReport_numbers (l : LoopId) (a : SlotId) (r : Report) : Numbers s (takeReport l a r s) := by
  unfold takeReport; simp only []
  cases r with
  | badge x b i t ds => exact .ite (takeBadge_numbers _ _ _ _ _ _ _) (.refl _)
  | rex x => exact .ite (.of_frame (rexPress_frame _ _)) (.refl _)
  | contact o => exact .ite (.of_frame (contactOpen_frame _ _)) (.of_frame (contactClosed_frame _ _))
  | bolt w n => exact .of_frame (boltReport_frame _ _ _ _)
  | beam i => exact .ite (.refl _) ((Numbers.of_frame (countBeam_frame _ _ _)).trans (beamCrossing_numbers _ _ _))
  | tamper b => exact .of_frame (setTamper_frame _ _ _ _)

theorem takeReports_numbers (l : LoopId) (a : SlotId) (rs : List (Option Report)) : Numbers s (takeReports l a rs s) := by
  unfold takeReports
  refine Numbers.foldl _ (fun t r => ?_) _ _
  cases r
  · exact .refl _
  · exact (takeReport_numbers _ _ _ _).trans (endEvent_numbers _)

theorem takeStatus_numbers (l : LoopId) (a : SlotId) (r : StatusRecord) : Numbers s (takeStatus l a r s) := by
  unfold takeStatus; simp only []
  refine .push (.trans ?_ (sweepReply_numbers _ _ _ _)) (setTamper_frame _ _ _ _)
  refine .trans ?_ (.ite (.refl _) (reconcile_numbers _ _ _ _ _))
  exact ((Numbers.of_frame (setSlot_frame s l a _)).push (statusReport_frame _ _ _ _ _)).trans (settle_numbers _ _)

theorem stationHeard_frame (l : LoopId) (a : SlotId) : SameBut [.loops, .alarms] s (stationHeard l a s) := by
  unfold stationHeard; simp only []
  have h : SameBut [.loops, .alarms] s (endExchange l (completeCmd l s)) :=
    ((completeCmd_frame s l).mono (by decide)).push (endExchange_frame _ l) (by decide)
  exact .ite (h.push (goOnline_frame _ _ _) (by decide)) (h.push (setSlot_frame _ _ _ _) (by decide))

theorem takeReply_numbers (l : LoopId) (x : Exchange) (f : StationFrame) : Numbers s (takeReply l x f s) := by
  unfold takeReply; simp only []
  have h3 := (Numbers.of_frame (stationHeard_frame s l x.slot)).trans (takeReports_numbers _ l x.slot f.reports)
  generalize takeReports l x.slot f.reports (stationHeard l x.slot s) = u at h3 ⊢
  have h4 : Numbers s (if f.overflow = true then takeOverflow l x.slot u else u) :=
    .ite ((h3.push (setSlot_frame _ _ _ _)).push (giveCmd_frame _ _ _ _)) h3
  split
  · exact h4.trans (takeStatus_numbers _ _ _ _)
  · exact h4

theorem stationReplied_numbers (l : LoopId) (bytes : List Byte) : Numbers s (stationReplied l bytes s) := by
  unfold stationReplied; split
  · split
    · exact takeReply_numbers _ _ _ _
    · exact missExchange_numbers _ _ _
  · exact .refl _

theorem sweepFailLoop_numbers (l : LoopId) : Numbers s (sweepFailLoop l s) := by
  unfold sweepFailLoop; split
  · exact .ite ((sweepFail_numbers _ _).trans (sweepFail_numbers _ _)) (.refl _)
  · exact .refl _

theorem cutLoop_numbers (l : LoopId) : Numbers s (cutLoop l s) := by
  unfold cutLoop; simp only []
  refine .push (.push (.trans ?_ (sweepFailLoop_numbers _ _)) (raiseAlarm_frame _ _ _ _)) (noticeLoop_frame _ _ _ _)
  exact (Numbers.of_frame (setLoop_frame s l _)).trans (Numbers.foldl _ (fun _ _ => .of_frame (stationLost_frame _ _)) _ _)

theorem reconfigureSlot_numbers (d : DoorId) (b : Bool) : Numbers s (reconfigureSlot d b s) := by
  unfold reconfigureSlot; simp only []
  refine .ite (.refl _) (.ite ((Numbers.of_frame (setSlot_frame s _ _ _)).push (noticeSlot_frame _ _ _ _)) ?_)
  refine .push (.trans (.push ?_ (stationLost_frame _ _)) (sweepFail_numbers _ _)) (noticeSlot_frame _ _ _ _)
  have h (x : Slot) : Numbers s (discardCmds (loopOf (zoneOf d)) (slotOf d) (s.setSlot (loopOf (zoneOf d)) (slotOf d) x)) :=
    (Numbers.of_frame (setSlot_frame s _ _ x)).push (discardCmds_frame _ _ _)
  exact .ite ((h _).push (endExchange_frame _ _)) (h _)

/-! ### The commits of the store -/

theorem commitControl_frame (x : ControlRec) : SameBut [.store] s (commitControl x s) := store_frame _ _
theorem commitPart_frame (x : PartRec) : SameBut [.store] s (commitPart x s) := store_frame _ _
theorem commitZone_frame (z : Zone) (x : ZoneCfg) : SameBut [.store] s (commitZone z x s) := store_frame _ _

theorem lockZone_frame (z : Zone) (b : Bool) : SameBut [.doors, .zones, .passage, .loops, .ports] s (lockZone z b s) := by
  unfold lockZone; simp only []
  refine .push (.push (.ite ?_ (.refl _ _)) (indicate_frame _ _ _ _) (by decide)) (indicate_frame _ _ _ _) (by decide)
  exact (((cutZone_frame s z).mono (by decide)).push (supersede_frame _ _ _) (by decide)).push (clearPairing_frame _ _ _ _) (by decide)

theorem unlockZone_frame (z : Zone) : SameBut [.loops] s (unlockZone z s) := by
  unfold unlockZone
  exact .ite (.refl _ _) ((indicate_frame _ _ _ _).trans (indicate_frame _ _ _ _))

theorem serviceClaim_frame (z : Zone) (b : Bool) : SameBut [.zones, .passage] s (serviceClaim z b s) := by
  unfold serviceClaim
  refine .push (.ite ((setZone_frame s _ _).mono (by decide)) ?_) (endClaim_frame _ _ _ _) (by decide)
  exact ((dropPairing_frame s z).mono (by decide)).push (setZone_frame _ _ _) (by decide)

/-- What SET_SERVICE's commit can change (R24). -/
def serviceParts : List Part := [.store, .doors, .zones, .passage, .loops, .ports]

theorem commitService_frame (z : Zone) (b : Bool) : SameBut serviceParts s (commitService z b s) := by
  unfold commitService; simp only []
  have h := ((commitControl_frame s (serviceImage z b s)).mono (m := serviceParts) (by decide)).push (serviceClaim_frame _ z b) (by decide)
  generalize serviceClaim z b (commitControl (serviceImage z b s) s) = t at h ⊢
  have k : SameBut serviceParts s (if (s.zone z).pairing.isSome = true then t.indicate z .corridor .denied else t) :=
    .ite (h.push (indicate_frame _ _ _ _) (by decide)) h
  refine .ite h (.push (.ite k (k.push (cutZone_frame _ _) (by decide))) (supersede_frame _ _ _) (by decide))

theorem commitForceChord_frame (b : Bool) : SameBut [.store, .supp, .ports] s (commitForceChord b s) := by
  unfold commitForceChord; simp only []
  have h : SameBut [.store, .supp, .ports] s (commitControl { s.control with forceChord := b } s) :=
    (commitControl_frame s _).mono (by decide)
  exact .ite (h.push (closeWindow_frame _ _) (by decide)) h

theorem commitIsolate_frame (z : Zone) : SameBut [.store, .supp] s (commitIsolate z s) :=
  (((commitControl_frame s _).mono (by decide)).push (suppNotice_frame _ _ _) (by decide)).push (setSuppState_frame _ _ _) (by decide)

theorem commitDeisolate_frame (z : Zone) : SameBut [.store, .supp] s (commitDeisolate z s) := by
  unfold commitDeisolate; simp only []
  have h (x : SuppRec) : SameBut [.store, .supp] s
      ((suppNotice z .deisolate (commitControl (isolationImage z false s) s)).setSuppRec z x) :=
    (((commitControl_frame s _).mono (by decide)).push (suppNotice_frame _ _ _) (by decide)).push (setSuppRec_frame _ _ _) (by decide)
  exact .ite ((h _).push (confirmZone_frame _ _) (by decide)) (h _)

theorem writeCommit_numbers (r : Request) : Numbers s (writeCommit r s) := by
  have zone (b : Byte) (f : Zone → State) (hf : ∀ k, Numbers s (f k)) : Numbers s (((zoneArg b).map f).getD s) := by
    cases zoneArg b
    · exact .refl _
    · exact hf _
  cases r with
  | writeSchedule ws =>
    exact ((Numbers.of_frame (commitPart_frame s _)).push (hours_frame _ _)).trans (evaluateHours_numbers _ _)
  | writePassageConfig form =>
    cases form with
    | part f => exact .of_frame (commitPart_frame _ _)
    | zone b f =>
      simp only [writeCommit, commitPassage]
      split
      · exact (((Numbers.of_frame (commitZone_frame s _ _)).trans (reconfigureSlot_numbers _ _ _)).trans
          (reconfigureSlot_numbers _ _ _)).push (endAlarms_frame _ _)
      · exact .refl _
  | writeSuppressionConfig b f => exact zone _ _ fun _ => .of_frame (commitZone_frame _ _ _)
  | isolate b => exact zone _ _ fun _ => .of_frame (commitIsolate_frame _ _)
  | deisolate b => exact zone _ _ fun _ => .of_frame (commitDeisolate_frame _ _)
  | excludeSweep b => exact zone _ _ fun _ => .of_frame (commitControl_frame _ _)
  | includeSweep b => exact zone _ _ fun _ => .of_frame (commitControl_frame _ _)
  | setService b d =>
    simp only [writeCommit]
    split
    · exact .of_frame (commitService_frame _ _ _)
    · exact .refl _
  | lockdown w =>
    exact (Numbers.of_frame (commitControl_frame s _)).trans (Numbers.foldl _ (fun _ _ => .of_frame (lockZone_frame _ _ _)) _ _)
  | endLockdown w =>
    exact (Numbers.of_frame (commitControl_frame s _)).trans (Numbers.foldl _ (fun _ _ => .of_frame (unlockZone_frame _ _)) _ _)
  | enableForceChord v => exact .of_frame (commitForceChord_frame _ _)
  | _ => exact .refl _

end Sys2Proof.Machine
end

