-- ==== Sys2Proof/Laws/Settle.lean ====
section
/-! SUPPORT. What the hand-ons of a step and the reports of a station can change: the queue of commands, the time base, the end of start-up
and the store stay. -/
namespace Sys2Proof.Machine
set_option Elab.async false -- one proof at a time keeps the threads of a compile few

variable (s : State)

/-- The parts that the units' responses to each other and to the field can change. -/
def fieldParts : List Part := [.zones, .pool, .doors, .passage, .hours, .alarms, .sweep, .loops, .ports]

/-- Nothing outside the field's parts has changed. -/
abbrev Stays (s t : State) : Prop := SameBut fieldParts s t

/-- The parts that the end of a step's hand-ons can change: the suppression unit takes in the certainty among them, and its outputs
follow. -/
def handOnParts : List Part := .supp :: .lines :: fieldParts

/-- Nothing outside the field's parts, the suppression unit and the outputs it drives has changed. -/
abbrev Holds (s t : State) : Prop := SameBut handOnParts s t

theorem SameBut.wide {s t : State} (h : Stays s t) : Holds s t := h.mono (by decide)

theorem SameBut.field {l : List Part} {s t : State} (h : SameBut l s t) (hl : l ⊆ fieldParts := by decide) : Stays s t := h.mono hl

theorem SameBut.also {l : List Part} {s t u : State} (h : Stays s t) (k : SameBut l t u) (hl : l ⊆ fieldParts := by decide) : Stays s u :=
  h.push k hl

/-! ### The hand-ons -/

theorem removeAdmitted_stays (z : Zone) (g : Nat) : Stays s (removeAdmitted z g s) := .field (removeEntries_frame _ _ _)

theorem groupEnters_stays (z : Zone) (g : Nat) : Stays s (groupEnters z g s) := by
  unfold groupEnters; split <;> exact (SameBut.field (relocate_frame _ _ _ _ _ _ _)).also (setZonePassage_frame _ _ _)

theorem dropEntryGroup_stays (z : Zone) (g : Option Nat) : Stays s (dropEntryGroup z g s) := .field (setZonePassage_frame _ _ _)

theorem outerPassageEnds_stays (z : Zone) (g : Nat) (o : Bool) (e : ReleaseEnd) (l : Bool) :
    Stays s (outerPassageEnds z g o e l s) := by
  unfold outerPassageEnds; split
  · split
    · exact .field (offerCycle_frame _ _)
    · exact .ite (.trans (.ite (.refl _ _) (.field (addReason_frame _ _ _))) (dropEntryGroup_stays _ _ _)) (.refl _ _)
    · exact .refl _ _
  · simp only []
    have h : Stays s (dropEntryGroup z (some g) (if e = .abandoned ∧ l then s else removeAdmitted z g s)) :=
      .trans (.ite (.refl _ _) (removeAdmitted_stays _ _ _)) (dropEntryGroup_stays _ _ _)
    exact .ite (h.also (indicate_frame _ _ _ _)) h

theorem tailgates_stays (z : Zone) (k : Nat) : Stays s (tailgates z k s) := by
  induction k generalizing s with
  | zero => exact .refl _ _
  | succ k ih => exact ((SameBut.field (createAnonymous_frame s _ _)).also (raiseAlarm_frame _ _ _ _)).trans (ih _)

theorem settleInbound_stays (z : Zone) (g : Nat) : Stays s (settleInbound z g s) := by
  unfold settleInbound; simp only []
  have h := SameBut.field (relocate_frame s z (fun e => e.group == some g) .vestibule .inner .remove 96)
  generalize relocate z (fun e => e.group == some g) .vestibule .inner .remove 96 s = t at h ⊢
  have k (x : ZonePassage) : Stays s (t.setZonePassage z x) := h.also (setZonePassage_frame _ _ _)
  exact .ite ((k _).also (addReason_frame _ _ _)) ((k _).trans (tailgates_stays _ _ _))

theorem moveOutbound_stays (z : Zone) (g : Option Nat) (n : Nat) : Stays s (moveOutbound z g n s) := by
  unfold moveOutbound; simp only []
  refine .ite ?_ (.trans ?_ (.field (setPendingOuter_frame _ _)))
  all_goals
    refine .trans ?_ (.ite (.field (addReason_frame _ _ _)) (.refl _ _))
    refine .trans ?_ (.ite (.refl _ _) (.field (relocate_frame _ _ _ _ _ _ _)))
    refine .trans ?_ (.ite ((SameBut.field (addReason_frame _ _ _)).also (amendGroup_frame _ _ _ _)) (.refl _ _))
    exact .ite (.refl _ _) (.field (relocate_frame _ _ _ _ _ _ _))

theorem settleOutbound_stays (z : Zone) (g : Option Nat) : Stays s (settleOutbound z g s) := by
  unfold settleOutbound; simp only []
  exact .also (.ite (.field (addReason_frame _ _ _)) (moveOutbound_stays _ _ _ _)) (setZonePassage_frame _ _ _)

theorem unopenedCrossings_stays (z : Zone) : Stays s (unopenedCrossings z s) := by
  unfold unopenedCrossings; simp only []
  exact .ite (.refl _ _) ((SameBut.field (setZonePassage_frame s _ _)).also (addReason_frame _ _ _))

theorem innerPassageEnds_stays (z : Zone) (g : Nat) (o : Bool) (e : ReleaseEnd) : Stays s (innerPassageEnds z g o e s) := by
  unfold innerPassageEnds; split
  · exact .ite ((SameBut.field (setZonePassage_frame s _ _)).also (addReason_frame _ _ _)) (settleInbound_stays _ _ _)
  · simp only []
    exact .ite ((SameBut.field (setZonePassage_frame s _ _)).also (indicate_frame _ _ _ _)) (.field (setZonePassage_frame s _ _))

theorem innerEgressEnds_stays (z : Zone) (g : Option Nat) (o : Bool) (e : ReleaseEnd) : Stays s (innerEgressEnds z g o e s) := by
  unfold innerEgressEnds; split
  · refine .ite ?_ (settleOutbound_stays _ _ _)
    exact ((SameBut.field (addReason_frame _ _ s)).also (amendGroup_frame _ _ _ _)).also (setZonePassage_frame _ _ _)
  · exact .refl _ _

theorem releaseEnded_stays (d : DoorId) (r : Release) (o : ReleaseEnd) (l : Bool) : Stays s (releaseEnded d r o l s) := by
  unfold releaseEnded; simp only []; split
  · split
    · exact outerPassageEnds_stays _ _ _ _ _ _
    · exact .ite ((SameBut.field (removeEntries_frame s _ _)).also (setZonePassage_frame _ _ _)) (.refl _ _)
    · exact .refl _ _
  · have h (c : Bool) : Stays s (if c = true then unopenedCrossings (zoneOf d) s else s) := .ite (unopenedCrossings_stays _ _) (.refl _ _)
    split
    · exact (h _).trans (innerPassageEnds_stays _ _ _ _ _)
    · exact (h _).trans (innerEgressEnds_stays _ _ _ _ _)
    · exact h _

theorem evacuationPassage_stays (z : Zone) : Stays s (evacuationPassage z s) := by
  unfold evacuationPassage; simp only []
  refine .also (.also (.also (.trans ?_ (.ite (.field (setPendingOuter_frame _ _)) (.refl _ _))) (indicate_frame _ _ _ _))
    (indicate_frame _ _ _ _)) (indicate_frame _ _ _ _)
  exact (((SameBut.field (removeEntries_frame s _ _)).also (setZonePassage_frame _ _ _)).also (supersede_frame _ _ _)).also
    (dropPairing_frame _ _)

theorem endSweep_stays (r : SweepRec) (o : SweepOutcome) : Stays s (endSweep r o s) := by
  unfold endSweep; simp only []
  have h : Stays s (noticeSweep r.zone (some o) r.kind (some r)
      { applyResult r.zone o (sweepResultClaim r.zone o s) with sweep.inProgress := none }) :=
    (((SameBut.field (sweepResultClaim_frame s _ _)).also (applyResult_frame _ _ _)).also (sweep_frame _ _)).also (noticeSweep_frame _ _ _ _ _)
  generalize noticeSweep r.zone (some o) r.kind (some r)
      { applyResult r.zone o (sweepResultClaim r.zone o s) with sweep.inProgress := none } = t at h ⊢
  have k : Stays s (if o = .abandoned then t else endDoorSweep r.zone t) := .ite h (h.also (endDoorSweep_frame _ _))
  split
  · exact k.also (sweepNext_frame _ _)
  · exact k

theorem sweepAbandonedOf_stays (z : Zone) : Stays s (sweepAbandonedOf z s) := by
  unfold sweepAbandonedOf; split
  · exact .ite (endSweep_stays _ _ _) (.refl _ _)
  · exact .refl _ _

theorem sweepFail_stays (d : DoorId) : Stays s (sweepFail d s) := by
  unfold sweepFail; split
  · exact .ite (endSweep_stays _ _ _) (.refl _ _)
  · exact .refl _ _

/-- A hand-on changes the field's parts alone, or the suppression unit takes in a certainty. -/
theorem takeHandOn_or (h : HandOn) : Stays s (takeHandOn h s) ∨ ∃ z c, takeHandOn h s = takeCertainty z c s := by
  cases h with
  | certainty z c => exact .inr ⟨z, c, rfl⟩
  | reevaluate z => exact .inl (.field (evaluateZone_frame _ _))
  | evacuationEntered z =>
    exact .inl (((SameBut.field (cutZone_frame s z)).also (handOnFirst_frame _ _)).trans (evacuationPassage_stays _ _))
  | evacuationLeft z => exact .inl ((SameBut.field (evaluateAfterEvacuation_frame s z)).also (evacuationOver_frame _ _))
  | threw d g =>
    cases g with
    | none => exact .inl (.refl _ _)
    | some k => exact .inl (.ite (groupEnters_stays _ _ _) (.refl _ _))
  | lapse d g =>
    cases g with
    | none => exact .inl (.refl _ _)
    | some k => exact .inl (.ite (removeAdmitted_stays _ _ _) (.refl _ _))
  | released d r o l => exact .inl (releaseEnded_stays _ _ _ _ _)
  | secured d => exact .inl (.field (doorSecured_frame _ _))
  | sweepAbandoned z => exact .inl (sweepAbandonedOf_stays _ _)

theorem takeHandOn_holds (h : HandOn) : Holds s (takeHandOn h s) := by
  rcases takeHandOn_or s h with k | ⟨z, c, k⟩
  · exact k.wide
  · rw [k]; exact (takeCertainty_frame s z c).mono (by decide)

/-- What holds of every state and is kept by each hand-on is kept by all the hand-ons of a step. -/
theorem settle_induction {P : State → State → Prop} (refl : ∀ s, P s s) (trans : ∀ {s t u}, P s t → P t u → P s u)
    (work : ∀ s w, P s { s with work := w }) (one : ∀ s h, P s (takeHandOn h s)) (k : Nat) (s : State) : P s (settle k s) := by
  induction k generalizing s with
  | zero => exact refl s
  | succ k ih =>
    unfold settle; split
    · exact refl s
    · exact trans (trans (work s _) (one _ _)) (ih _)

/-- The hand-ons of a step change the field's parts and the suppression unit alone. -/
theorem settle_holds (k : Nat) : Holds s (settle k s) :=
  settle_induction (P := Holds) (fun _ => .refl _ _) .trans (fun s _ => .of_work _ s _) takeHandOn_holds k s

theorem endEvent_holds : Holds s (endEvent s) := (settle_holds s _).push (refreshAll_frame _) (by decide)

/-! ### The end of a step leaves a state that no hold reason moves -/

/-- PREDISCHARGE and HELD, between which hold reasons move a zone (R128, R129). -/
def SuppState.holdable : SuppState → Bool
  | .preDischarge | .held => true
  | _ => false

theorem state_changeHolds (z : Zone) (x : HoldSet) (h : (s.suppRec z).state.holdable = false) :
    ((changeHolds z x s).suppRec z).state = (s.suppRec z).state := by
  unfold changeHolds; simp only []
  generalize hb : (if x = (s.suppRec z).holds then s
    else suppNotice z .holdChange (s.setSuppRec z { s.suppRec z with holds := x })) = t
  have k : (t.suppRec z).state = (s.suppRec z).state := by
    rw [← hb]; split
    · rfl
    · simp
  have m : ∀ u : State, (u.suppRec z).state = (s.suppRec z).state → ((holdTransition z u).suppRec z).state = (s.suppRec z).state := by
    intro u hu
    unfold holdTransition; simp only []
    split
    · rename_i e; rw [← hu, e] at h; exact absurd h (by decide)
    · rename_i e; rw [← hu, e] at h; exact absurd h (by decide)
    · exact hu
  refine m _ ?_
  split
  · simpa using k
  · exact k

theorem state_closeZone (z : Zone) (h : (s.suppRec z).state.holdable = false) (y : Zone) :
    ((closeZone s y).suppRec z).state = (s.suppRec z).state := by
  by_cases e : z = y
  · subst e
    unfold closeZone refreshHolds
    rw [suppRec_congr (driveOutputs_frame _ _).supp, state_changeHolds, suppRec_congr (pruneZone_frame _ _).supp]
    rwa [suppRec_congr (pruneZone_frame _ _).supp]
  · rw [suppRec_closeZone_ne _ e]

theorem state_closeZones (z : Zone) (h : (s.suppRec z).state.holdable = false) :
    ((closeZones s).suppRec z).state = (s.suppRec z).state := by
  unfold closeZones
  generalize allZones = l
  induction l generalizing s with
  | nil => rfl
  | cons y l ih =>
    have k := state_closeZone s z h y
    exact (ih (closeZone s y) (by rwa [k])).trans k

/-- The hand-ons of a step leave it too. -/
theorem state_settle (k : Nat) (z : Zone) (h : (s.suppRec z).state.holdable = false) :
    ((settle k s).suppRec z).state = (s.suppRec z).state := by
  refine settle_induction (P := fun s t => (s.suppRec z).state.holdable = false → (t.suppRec z).state = (s.suppRec z).state)
    (fun _ _ => rfl) (fun h k e => ?_) (fun _ _ _ => rfl) (fun t x e => ?_) k s h
  · have m := h e
    exact (k (by rwa [m])).trans m
  · rcases takeHandOn_or t x with m | ⟨y, c, m⟩
    · rw [suppRec_congr m.supp]
    · rw [m]
      by_cases hy : z = y
      · subst hy; exact state_changeHolds t z _ e
      · unfold takeCertainty; rw [suppRec_changeHolds_ne _ _ hy]

/-- A suppression state that no hold reason moves is as the command's own effect left it. -/
theorem state_finishWith (f : List DueNotice → List DueNotice) (b : State) (z : Zone) (h : (s.suppRec z).state.holdable = false) :
    ((finishWith f b s).suppRec z).state = (s.suppRec z).state := by
  have k := state_settle s Config.handOnBound z h
  have m := state_closeZones (settle Config.handOnBound s) z (by rwa [k])
  rw [suppRec_congr (finishWith_closeZones f b s).supp, m, k]

/-! ### The reports of a station -/

theorem denyPresentation_stays (p : Presentation) (x : Source) (r : PassageReason) : Stays s (denyPresentation p x r s) :=
  .field (denyPresentation_frame _ _ _ _)
theorem waitPresentation_stays (p : Presentation) (x : Source) : Stays s (waitPresentation p x s) := .field (waitPresentation_frame _ _ _)

theorem admitNew_stays (p : Presentation) (x : Source) (ms : List Member) (g : Nat) : Stays s (admitNew p x ms g s) := by
  unfold admitNew; simp only []
  refine .ite ?_ (.trans (.also (.field (admitGroup_frame s _ _ _)) (removeEntries_frame _ _ _)) (denyPresentation_stays _ _ _ _))
  exact ((((SameBut.field (admitGroup_frame s _ _ _)).also (setZonePassage_frame _ _ _)).also (attachRelease_frame _ _ _ _ _)).also
    (indicate_frame _ _ _ _)).also (noticePassage_frame _ _ _ _ _ _ _ _ _)

theorem admitJoin_stays (p : Presentation) (x : Source) (ms : List Member) (g : Nat) : Stays s (admitJoin p x ms g s) := by
  unfold admitJoin; simp only []
  refine .ite ?_ (.trans (.also (.field (admitGroup_frame s _ _ _)) (removeEntries_frame _ _ _)) (waitPresentation_stays _ _ _))
  exact (((SameBut.field (admitGroup_frame s _ _ _)).also (windowRestart_frame _ _)).also (indicate_frame _ _ _ _)).also
    (noticePassage_frame _ _ _ _ _ _ _ _ _)

theorem admitClaim_stays (p : Presentation) (x : Source) (ms : List Member) {f : State → State} (hf : Stays s (f s)) :
    Stays s (admitClaim p x ms f s) := by
  unfold admitClaim; split
  · exact denyPresentation_stays _ _ _ _
  · exact hf

theorem admitMembers_stays (p : Presentation) (x : Source) (ms : List Member) (d : Disposition) : Stays s (admitMembers p x ms d s) := by
  unfold admitMembers; split
  · exact admitClaim_stays _ _ _ _ (admitJoin_stays _ _ _ _ _)
  · exact (SameBut.field (chooseGroup_frame s _)).trans (admitClaim_stays _ _ _ _ (admitNew_stays _ _ _ _ _))

theorem pairRule_stays (p : Presentation) (x : Source) (g : Grant) (d : Disposition) : Stays s (pairRule p x g d s) := by
  unfold pairRule; simp only []
  have w (t : State) : Stays t (noticePassage p.door p.badge x .pairWait .none none [] p.query
      (t.indicate (zoneOf p.door) .corridor .waitPair)) :=
    (SameBut.field (indicate_frame t _ _ _)).also (noticePassage_frame _ _ _ _ _ _ _ _ _)
  split
  · exact ((SameBut.field (setZone_frame s _ _)).also (setZonePassage_frame _ _ _)).trans (w _)
  · exact .ite (w _) ((SameBut.field (dropPairing_frame s _)).trans (admitMembers_stays _ _ _ _ _))

theorem decideGrant_stays (p : Presentation) (x : Source) (g : Grant) : Stays s (decideGrant p x g s) := by
  unfold decideGrant; split
  · exact waitPresentation_stays _ _ _
  · exact denyPresentation_stays _ _ _ _
  · split
    · exact denyPresentation_stays _ _ _ _
    · exact .ite (pairRule_stays _ _ _ _ _) (admitMembers_stays _ _ _ _ _)

theorem cacheDecide_stays (p : Presentation) : Stays s (cacheDecide p s) := by
  unfold cacheDecide; split
  · exact denyPresentation_stays _ _ _ _
  · exact (SameBut.field (cacheInsert_frame s _)).trans (decideGrant_stays _ _ _ _)

theorem raiseQuery_stays (p : Presentation) : Stays s (raiseQuery p s) := by
  unfold raiseQuery; simp only []
  refine .ite ?_ ((SameBut.field (notify_frame s _ _ _ _)).trans (cacheDecide_stays _ _))
  exact ((SameBut.field (notify_frame s _ _ _ _)).also (passage_frame _ _)).also (indicate_frame _ _ _ _)

theorem entryPresentation_stays (p : Presentation) : Stays s (entryPresentation p s) := by
  unfold entryPresentation; simp only []
  have h : Stays s (if p.terminator = .duress then raiseAlarm .duress (some (zoneOf p.door)) (.badge p.badge) s else s) :=
    .ite (.field (raiseAlarm_frame _ _ _ _)) (.refl _ _)
  generalize (if p.terminator = .duress then raiseAlarm .duress (some (zoneOf p.door)) (.badge p.badge) s else s) = t at h ⊢
  refine .ite ((h.also (indicatePolicy_frame _ _ _)).also (noticePassage_frame _ _ _ _ _ _ _ _ _)) ?_
  exact .ite (h.trans (waitPresentation_stays _ _ _)) (.ite (h.trans (cacheDecide_stays _ _)) (h.trans (raiseQuery_stays _ _)))

theorem vestibuleReader_stays (z : Zone) (b : Badge) : Stays s (vestibuleReader z b s) := by
  unfold vestibuleReader; simp only []; split
  · exact .field (tellReader_frame _ _ _ _ _ _ _)
  · refine .ite (.ite ?_ (.field (tellReader_frame _ _ _ _ _ _ _))) (.ite (.ite ?_ ?_) (.field (tellReader_frame _ _ _ _ _ _ _)))
    · exact ((SameBut.field (amendGroup_frame s _ _ _)).also (windowRestart_frame _ _)).also (tellReader_frame _ _ _ _ _ _ _)
    · exact ((((SameBut.field (noteChoice_frame s _ _)).also (amendGroup_frame _ _ _ _)).also (setZonePassage_frame _ _ _)).also
        (attachRelease_frame _ _ _ _ _)).also (tellReader_frame _ _ _ _ _ _ _)
    · exact ((((SameBut.field (noteChoice_frame s _ _)).also (amendGroup_frame _ _ _ _)).also (setZonePassage_frame _ _ _)).also
        (indicatePolicy_frame _ _ _)).also (noticePassage_frame _ _ _ _ _ _ _ _ _)

theorem vaultReader_stays (z : Zone) (b : Badge) : Stays s (vaultReader z b s) := by
  unfold vaultReader; simp only []; split
  · exact .field (rexPress_frame _ _)
  · refine .ite (.ite ?_ (.field (tellReader_frame _ _ _ _ _ _ _))) (.ite ?_ (.field (tellReader_frame _ _ _ _ _ _ _)))
    · exact (((((SameBut.field (noteChoice_frame s _ _)).also (amendGroup_frame _ _ _ _)).also (setZonePassage_frame _ _ _)).also
        (groupSet_frame _ _ _)).also (windowRestart_frame _ _)).also (tellReader_frame _ _ _ _ _ _ _)
    · exact ((((SameBut.field (chooseGroup_frame s _)).also (amendGroup_frame _ _ _ _)).also (setZonePassage_frame _ _ _)).also
        (attachRelease_frame _ _ _ _ _)).also (tellReader_frame _ _ _ _ _ _ _)

theorem checkIn_stays (z : Zone) (b : Badge) : Stays s (checkIn z b s) := by
  unfold checkIn; split
  · exact .field (indicate_frame _ _ _ _)
  · simp only []
    refine .ite ?_ ((SameBut.field (amendEntries_frame s _ _)).also (indicate_frame _ _ _ _))
    exact (((SameBut.field (amendEntries_frame s _ _)).also (endAlarm_frame _ _ _ _)).also (indicate_frame _ _ _ _)).also
      (evalWarning_frame _ _ _)

theorem takeBadge_stays (d : DoorId) (x : Side) (b : Badge) (i : Bool) (t : Terminator) (ds : List Nat) :
    Stays s (takeBadge d x b i t ds s) := by
  unfold takeBadge; simp only []; split
  · exact .field (noBadge_frame _ _ _ _ _)
  · split
    · exact entryPresentation_stays _ _
    · exact vestibuleReader_stays _ _ _
    · exact .ite (checkIn_stays _ _ _) (vaultReader_stays _ _ _)

theorem settleMaster_stays (z : Zone) (b : Bool) : Stays s (settleMaster z b s) := by
  unfold settleMaster
  exact .ite (.field (createAnonymous_frame _ _ _)) (.ite (.field (relocate_frame _ _ _ _ _ _ _)) (.field (addReason_frame _ _ _)))

theorem beamCrossing_stays (z : Zone) (b : Bool) : Stays s (beamCrossing z b s) := by
  unfold beamCrossing; simp only []
  have h : Stays s (if b = true then adjustHeadcount z 1 0 s else adjustHeadcount z 0 1 s) :=
    .ite (.field (adjustHeadcount_frame _ _ _ _)) (.field (adjustHeadcount_frame _ _ _ _))
  generalize (if b = true then adjustHeadcount z 1 0 s else adjustHeadcount z 0 1 s) = t at h ⊢
  split
  · exact .ite (h.trans (settleMaster_stays _ _ _)) (h.also (setZonePassage_frame _ _ _))
  · exact h.also (addReason_frame _ _ _)

/-- A report changes the field's parts alone. -/
theorem takeReport_stays (l : LoopId) (a : SlotId) (r : Report) : Stays s (takeReport l a r s) := by
  unfold takeReport; simp only []
  cases r with
  | badge x b i t ds => exact .ite (takeBadge_stays _ _ _ _ _ _ _) (.refl _ _)
  | rex x => exact .ite (.field (rexPress_frame _ _)) (.refl _ _)
  | contact o => exact .ite (.field (contactOpen_frame _ _)) (.field (contactClosed_frame _ _))
  | bolt w n => exact .field (boltReport_frame _ _ _ _)
  | beam i => exact .ite (.refl _ _) ((SameBut.field (countBeam_frame s _ _)).trans (beamCrossing_stays _ _ _))
  | tamper b => exact .field (setTamper_frame _ _ _ _)

theorem takeReports_holds (l : LoopId) (a : SlotId) (rs : List (Option Report)) : Holds s (takeReports l a rs s) := by
  unfold takeReports
  refine foldl_frame _ (fun t r => ?_) _ _
  cases r
  · exact .refl _ _
  · exact (takeReport_stays _ _ _ _).wide.trans (endEvent_holds _)

/-- The lines unit but for its outputs is as it was. -/
def InputsKept (s t : State) : Prop := { t.lines with outputs := s.lines.outputs } = s.lines

theorem InputsKept.of_lines {s t : State} (h : t.lines = s.lines) : InputsKept s t := by rw [InputsKept, h]

theorem InputsKept.trans {s t u : State} (h : InputsKept s t) (k : InputsKept t u) : InputsKept s u := by
  have a := congrArg (fun x => { x with outputs := s.lines.outputs }) k
  exact a.trans h

theorem endEvent_inputs : InputsKept s (endEvent s) := by
  have hs : InputsKept s (settle Config.handOnBound s) := by
    refine settle_induction (fun _ => .of_lines rfl) .trans (fun _ _ => .of_lines rfl) (fun t h => ?_) _ s
    rcases takeHandOn_or t h with k | ⟨z, c, k⟩
    · exact .of_lines k.lines
    · rw [k]; exact (changeHolds_outputsBut _ _ _).1
  have hf (zs : List Zone) (t : State) : InputsKept t (zs.foldl (fun t z => refreshHolds z t) t) := by
    induction zs generalizing t with
    | nil => exact .of_lines rfl
    | cons z zs ih => exact (show InputsKept t (refreshHolds z t) from (changeHolds_outputsBut _ _ _).1).trans (ih _)
  exact hs.trans (hf _ _)

/-- The reports of a reply leave the inputs at the lines and the chord as they were. -/
theorem takeReports_inputs (l : LoopId) (a : SlotId) (rs : List (Option Report)) : InputsKept s (takeReports l a rs s) := by
  unfold takeReports
  induction rs generalizing s with
  | nil => exact .of_lines rfl
  | cons r rs ih =>
    refine .trans ?_ (ih _)
    cases r
    · exact .of_lines rfl
    · exact (InputsKept.of_lines (takeReport_stays _ _ _ _).lines).trans (endEvent_inputs _)

theorem reconcile_stays (z : Zone) (i o : Nat) (b : Bool) : Stays s (reconcile z i o b s) := by
  unfold reconcile; simp only []
  refine .also ?_ (setBaseline_frame _ _ _ _)
  split
  · exact .refl _ _
  · exact .ite ((SameBut.field (adjustHeadcount_frame s _ _ _)).also (addReason_frame _ _ _)) (.field (adjustHeadcount_frame s _ _ _))
  · exact .field (addReason_frame _ _ _)

theorem sweepReply_stays (d : DoorId) (x : SweepReply) (f : Option Reconciled) : Stays s (sweepReply d x f s) := by
  unfold sweepReply; split
  · simp only []
    refine .ite ?_ (.refl _ _)
    split
    · exact (SameBut.field (sweep_frame s _)).trans (endSweep_stays _ _ _)
    · exact .field (sweep_frame s _)
  · exact .refl _ _

theorem takeStatus_holds (l : LoopId) (a : SlotId) (r : StatusRecord) : Holds s (takeStatus l a r s) := by
  unfold takeStatus; simp only []
  refine .push (.trans ?_ (sweepReply_stays _ _ _ _).wide) (setTamper_frame _ _ _ _) (by decide)
  refine .trans ?_ (.ite (.refl _ _) (reconcile_stays _ _ _ _ _).wide)
  exact (((SameBut.field (setSlot_frame s l a _)).also (statusReport_frame _ _ _ _ _)).wide).trans (settle_holds _ _)

/-- A valid reply changes the field's parts and the suppression unit alone. -/
theorem takeReply_holds (l : LoopId) (x : Exchange) (f : StationFrame) : Holds s (takeReply l x f s) := by
  unfold takeReply; simp only []
  have h := (SameBut.field (stationHeard_frame s l x.slot)).wide.trans (takeReports_holds _ l x.slot f.reports)
  generalize takeReports l x.slot f.reports (stationHeard l x.slot s) = u at h ⊢
  have k : Holds s (if f.overflow = true then takeOverflow l x.slot u else u) :=
    .ite ((h.push (setSlot_frame _ _ _ _) (by decide)).push (giveCmd_frame _ _ _ _) (by decide)) h
  split
  · exact k.trans (takeStatus_holds _ _ _ _)
  · exact k

end Sys2Proof.Machine
end

