-- ==== Sys2Proof/Laws/Commits.lean ====
section
/-! SUPPORT. What a commit leaves of the store: the one record its request writes, in a good copy with its count one ahead, every other
record as it was (R198, R202). -/
namespace Sys2Proof.Machine
set_option Elab.async false -- one proof at a time keeps the threads of a compile few

/-- A copy sealed by a commit is good (R198). -/
theorem sealedCopy_good {α : Type} (enc : α → List Byte) (f : α) (n : Word) : copyGood enc (sealedCopy enc f n) = true := by
  simp [copyGood, sealedCopy, copyCrc]

/-- The commit writes the record (R198). -/
theorem Stored.committed_commitWrite {α : Type} (enc : α → List Byte) (x : Stored α) (new : α) :
    Stored.Committed enc x (x.commitWrite enc new) := by
  unfold Stored.Committed Stored.commitWrite Stored.current
  cases x.useSecond <;> simp [sealedCopy_good] <;> exact ⟨rfl, rfl⟩

variable (s : State)

/-- The store after a commit of the control record. -/
def ControlCommitted (s t : State) : Prop := ∃ n, t.store = (commitControl n s).store

/-- The store after a commit of the part record. -/
def PartCommitted (s t : State) : Prop := ∃ n, t.store = (commitPart n s).store

/-- The store after a commit of a zone's record. -/
def ZoneCommitted (z : Zone) (s t : State) : Prop := ∃ n, t.store = (commitZone z n s).store

theorem commitControl_store (n : ControlRec) : ControlCommitted s (commitControl n s) := ⟨n, rfl⟩

theorem commitZone_store (z : Zone) (n : ZoneCfg) : ZoneCommitted z s (commitZone z n s) := ⟨n, rfl⟩

theorem enterAfterHours_frame (z : Zone) : SameBut [.hours, .pool, .zones, .loops, .ports] s (enterAfterHoursZone z s) := by
  unfold enterAfterHoursZone; split
  · exact .refl _ _
  · exact ((SameBut.refl _ s).push (amendEntries_frame _ _ _) (by decide)).push (evalWarning_frame _ _ _) (by decide)

theorem enterDayHours_frame (z : Zone) : SameBut [.hours, .pool, .zones, .passage, .loops, .ports] s (enterDayHoursZone z s) := by
  unfold enterDayHoursZone
  exact (((SameBut.refl _ s).push (amendEntries_frame _ _ _) (by decide)).push (clearPairing_frame _ _ _ _) (by decide)).push
    (evalWarning_frame _ _ _) (by decide)

theorem takeHours_frame (h : HoursState) : SameBut [.hours, .pool, .zones, .passage, .alarms, .loops, .ports] s (takeHours h s) := by
  have hs (x : HoursState) : SameBut [.hours, .pool, .zones, .passage, .alarms, .loops, .ports] s { s with hours.state := x } :=
    (hours_frame s _).mono (by decide)
  unfold takeHours; cases h
  · exact .push (.push (hs _) (foldl_frame (fun t z => enterDayHoursZone z t) (fun t z => enterDayHours_frame t z) _ _) (by decide))
      (endAlarms_frame _ _) (by decide)
  · exact .push (hs _) (foldl_frame (fun t z => enterAfterHoursZone z t) (fun t z => enterAfterHours_frame t z) _ _) (by decide)

/-- What an evaluation of the hours state may change (R86, R87). -/
theorem evaluateHours_frame (c : HoursCause) :
    SameBut [.hours, .pool, .zones, .passage, .alarms, .loops, .ports] s (evaluateHours c s) := by
  unfold evaluateHours; simp only []; split
  · exact .refl _ _
  · exact (takeHours_frame _ _).push (notify_frame _ _ _ _ _) (by decide)

theorem reconfigureSlot_frame (d : DoorId) (b : Bool) :
    SameBut [.doors, .zones, .pool, .hours, .passage, .alarms, .sweep, .loops, .ports] s (reconfigureSlot d b s) := by
  unfold reconfigureSlot; simp only []
  refine .ite (.refl _ _) (.ite (((setSlot_frame s _ _ _).mono (by decide)).push (noticeSlot_frame _ _ _ _) (by decide)) ?_)
  refine .push (.push (.push ?_ (stationLost_frame _ _) (by decide)) (l := fieldParts) (sweepFail_stays _ _) (by decide))
    (noticeSlot_frame _ _ _ _) (by decide)
  have h (x : Slot) : SameBut [.doors, .zones, .pool, .hours, .passage, .alarms, .sweep, .loops, .ports] s
      (discardCmds (loopOf (zoneOf d)) (slotOf d) (s.setSlot (loopOf (zoneOf d)) (slotOf d) x)) :=
    ((setSlot_frame s _ _ x).mono (by decide)).push (discardCmds_frame _ _ _) (by decide)
  exact .ite ((h _).push (endExchange_frame _ _) (by decide)) (h _)

theorem commitIsolate_store (z : Zone) : ControlCommitted s (commitIsolate z s) :=
  ⟨_, (setSuppState_frame _ _ _).store.trans (suppNotice_frame _ _ _).store⟩

theorem commitDeisolate_store (z : Zone) : ControlCommitted s (commitDeisolate z s) := by
  refine ⟨isolationImage z false s, ?_⟩
  unfold commitDeisolate; simp only []
  have h (x : SuppRec) : ((suppNotice z .deisolate (commitControl (isolationImage z false s) s)).setSuppRec z x).store
      = (commitControl (isolationImage z false s) s).store := (suppNotice_frame _ _ _).store
  split
  · rw [(confirmZone_frame _ _).store, h]
  · exact h _

theorem foldl_store {α : Type} (f : State → α → State) (hf : ∀ t a, (f t a).store = t.store) (l : List α) (t : State) :
    (l.foldl f t).store = t.store := by
  induction l generalizing t with
  | nil => rfl
  | cons a l ih => exact (ih _).trans (hf _ _)

theorem commitLockdown_store (w : ZoneOrAll) : ControlCommitted s (commitLockdown w s) :=
  ⟨_, foldl_store _ (fun _ _ => (lockZone_frame _ _ _).store) _ _⟩

theorem commitEndLockdown_store (w : ZoneOrAll) : ControlCommitted s (commitEndLockdown w s) :=
  ⟨_, foldl_store _ (fun _ _ => (unlockZone_frame _ _).store) _ _⟩

theorem commitService_store (z : Zone) (b : Bool) : ControlCommitted s (commitService z b s) := by
  refine ⟨serviceImage z b s, ?_⟩
  unfold commitService; simp only []
  have h := (serviceClaim_frame (commitControl (serviceImage z b s) s) z b).store
  generalize serviceClaim z b (commitControl (serviceImage z b s) s) = t at h ⊢
  split
  · exact h
  · rw [(supersede_frame _ _ _).store]
    have k : (if (s.zone z).pairing.isSome = true then t.indicate z .corridor .denied else t).store = t.store := by
      split
      · exact (indicate_frame _ _ _ _).store
      · rfl
    split
    · rw [k, h]
    · rw [(cutZone_frame _ _).store, k, h]

theorem commitForceChord_store (b : Bool) : ControlCommitted s (commitForceChord b s) := by
  refine ⟨{ s.control with forceChord := b }, ?_⟩
  unfold commitForceChord; simp only []; split
  · exact (closeWindow_frame _ _).store
  · rfl

theorem commitSchedule_store (ws : List WindowArgs) : PartCommitted s (commitSchedule ws s) := ⟨_, (evaluateHours_frame _ _).store⟩

theorem commitPassage_part (f : PartFields) : PartCommitted s (commitPassage (.part f) s) := ⟨_, rfl⟩

theorem commitPassage_zone {b : Byte} {z : Zone} (f : ZoneFields) (h : zoneArg b = some z) :
    ZoneCommitted z s (commitPassage (.zone b f) s) := by
  refine ⟨zoneImage z f s, ?_⟩
  simp only [commitPassage, h]
  simp only [endAbsent]
  rw [(endAlarms_frame _ _).store, (reconfigureSlot_frame _ _ _).store, (reconfigureSlot_frame _ _ _).store]

variable {s} {t : State}

theorem ControlCommitted.spec (h : ControlCommitted s t) : Stored.Committed ControlRec.bytes s.store.control t.store.control
    ∧ t.store.part = s.store.part ∧ ∀ y, t.storedZone y = s.storedZone y := by
  obtain ⟨n, hn⟩ := h
  refine ⟨by rw [hn]; exact Stored.committed_commitWrite _ _ _, by rw [hn]; rfl, fun y => by unfold State.storedZone; rw [hn]; rfl⟩

theorem PartCommitted.spec (h : PartCommitted s t) : Stored.Committed PartRec.bytes s.store.part t.store.part
    ∧ (∀ y, t.storedZone y = s.storedZone y) ∧ t.store.control = s.store.control := by
  obtain ⟨n, hn⟩ := h
  refine ⟨by rw [hn]; exact Stored.committed_commitWrite _ _ _, fun y => by unfold State.storedZone; rw [hn]; rfl, by rw [hn]; rfl⟩

theorem ZoneCommitted.spec {z : Zone} (h : ZoneCommitted z s t) : Stored.Committed ZoneCfg.bytes (s.storedZone z) (t.storedZone z)
    ∧ (∀ y, y ≠ z → t.storedZone y = s.storedZone y) ∧ t.store.part = s.store.part ∧ t.store.control = s.store.control := by
  obtain ⟨n, hn⟩ := h
  refine ⟨?_, fun y hy => ?_, by rw [hn]; rfl, by rw [hn]; rfl⟩
  · unfold State.storedZone; rw [hn]
    show Stored.Committed _ _ (nth (put s.store.zones z _) z)
    rw [nth_put_self]; exact Stored.committed_commitWrite _ _ _
  · unfold State.storedZone; rw [hn]; exact nth_put_ne _ _ hy

theorem ControlCommitted.mark (h : ControlCommitted s t) : t.store.defaultedMark = s.store.defaultedMark ∧ t.store.write = s.store.write := by
  obtain ⟨n, hn⟩ := h; rw [hn]; exact ⟨rfl, rfl⟩
theorem PartCommitted.mark (h : PartCommitted s t) : t.store.defaultedMark = s.store.defaultedMark ∧ t.store.write = s.store.write := by
  obtain ⟨n, hn⟩ := h; rw [hn]; exact ⟨rfl, rfl⟩
theorem ZoneCommitted.mark {z : Zone} (h : ZoneCommitted z s t) :
    t.store.defaultedMark = s.store.defaultedMark ∧ t.store.write = s.store.write := by
  obtain ⟨n, hn⟩ := h; rw [hn]; exact ⟨rfl, rfl⟩

/-- Whatever the request, its commit leaves the mark of a defaulted record and the write in progress as they were. -/
theorem writeCommit_mark (r : Request) (s : State) :
    (writeCommit r s).store.defaultedMark = s.store.defaultedMark ∧ (writeCommit r s).store.write = s.store.write := by
  have zone (b : Byte) (f : Zone → State) (hf : ∀ k, (f k).store.defaultedMark = s.store.defaultedMark ∧ (f k).store.write = s.store.write) :
      (((zoneArg b).map f).getD s).store.defaultedMark = s.store.defaultedMark ∧ (((zoneArg b).map f).getD s).store.write = s.store.write := by
    cases zoneArg b
    · exact ⟨rfl, rfl⟩
    · exact hf _
  cases r with
  | writeSchedule ws => exact (commitSchedule_store s ws).mark
  | writePassageConfig form =>
    cases form with
    | part f => exact (commitPassage_part s f).mark
    | zone b f =>
      cases h : zoneArg b with
      | some z => exact (commitPassage_zone s f h).mark
      | none => simp [writeCommit, commitPassage, h]
  | writeSuppressionConfig b f => exact zone _ _ fun _ => ⟨rfl, rfl⟩
  | isolate b => exact zone _ _ fun k => (commitIsolate_store s k).mark
  | deisolate b => exact zone _ _ fun k => (commitDeisolate_store s k).mark
  | excludeSweep b => exact zone _ _ fun _ => ⟨rfl, rfl⟩
  | includeSweep b => exact zone _ _ fun _ => ⟨rfl, rfl⟩
  | setService b d =>
    simp only [writeCommit]
    split
    · exact (commitService_store s _ _).mark
    · exact ⟨rfl, rfl⟩
  | lockdown w => exact (commitLockdown_store s w).mark
  | endLockdown w => exact (commitEndLockdown_store s w).mark
  | enableForceChord v => exact (commitForceChord_store s _).mark
  | _ => exact ⟨rfl, rfl⟩

end Sys2Proof.Machine
end

