-- ==== Sys2Proof/Laws/Doors.lean ====
section
/-! SUPPORT. The door unit's operations on one door leave every other door's record as it was. -/
namespace Sys2Proof.Machine
set_option Elab.async false -- one proof at a time keeps the threads of a compile few

variable {s t u : State} {d : DoorId}

theorem OtherDoors.refl (d : DoorId) (s : State) : OtherDoors d s s := fun _ _ => rfl

theorem OtherDoors.trans (h : OtherDoors d s t) (k : OtherDoors d t u) : OtherDoors d s u := fun y hy => (k y hy).trans (h y hy)

theorem OtherDoors.of_doors (h : t.doors = s.doors) : OtherDoors d s t := fun y _ => door_congr h y

/-- An operation that leaves the door unit's part changes no door. -/
theorem OtherDoors.push (h : OtherDoors d s t) {l : List Part} (k : SameBut l t u) (hn : Part.doors ∉ l := by decide) : OtherDoors d s u :=
  h.trans (.of_doors (k.doors hn))

theorem OtherDoors.ite {c : Prop} [Decidable c] (h : OtherDoors d s t) (k : OtherDoors d s u) : OtherDoors d s (if c then t else u) := by
  split <;> assumption

variable (s : State) (d : DoorId)

theorem setDoor_others (x : Door) : OtherDoors d s (s.setDoor d x) := fun _ hy => door_setDoor_ne s x hy
theorem setRail_others (k : Rail) (x : RailRec) : OtherDoors d s (s.setRail k x) := fun y _ => door_setRail s k x y
theorem leaveRail_others (y : DoorId) : OtherDoors d s (leaveRail y s) := setRail_others _ _ _ _
theorem setWait_others (w : WaitSet) : OtherDoors d s (setWait d w s) := setDoor_others _ _ _

theorem detachRelease_others (o : ReleaseEnd) (b : Bool) : OtherDoors d s (detachRelease d o b s) := by
  unfold detachRelease; split
  · exact (((leaveRail_others s d d).trans (setDoor_others _ _ _))).push (handOn_frame _ _)
  · exact .refl _ _

theorem endQueued_others (o : ReleaseEnd) : OtherDoors d s (endQueued d o s) :=
  ((((detachRelease_others s d _ _).trans (setDoor_others _ _ _)).push (doorNotice_frame _ _ _)).push (handOnFirst_frame _ _)).push
    (handOn_frame _ _)

theorem beginWithdrawal_others : OtherDoors d s (beginWithdrawal d s) := by
  unfold beginWithdrawal; simp only []
  refine .push ?_ (handOnFirst_frame _ _)
  have h : OtherDoors d s (leaveRail d s) := leaveRail_others s d d
  generalize leaveRail d s = t at h ⊢
  have k (x : RailRec) (y : Door) : OtherDoors d s ((doorNotice d none ((t.setRail (t.railOf d) x).setDoor d y)).giveDoorCmd d .withdraw) :=
    (((h.trans (setRail_others _ _ _ _)).trans (setDoor_others _ _ _)).push (doorNotice_frame _ _ _)).push (giveDoorCmd_frame _ _ _)
  exact .ite (k _ _) ((k _ _).push (setZonePassage_frame _ _ _))

theorem enterThrowing_others : OtherDoors d s (enterThrowing d s) := by
  unfold enterThrowing; simp only []
  have h (x : Door) : OtherDoors d s (((doorNotice d none (s.setDoor d x)).giveDoorCmd d .throwBolt).handOnFirst (.reevaluate (zoneOf d))) :=
    (((setDoor_others s d x).push (doorNotice_frame _ _ _)).push (giveDoorCmd_frame _ _ _)).push (handOnFirst_frame _ _)
  split
  · exact .ite ((h _).push (handOn_frame _ _)) (h _)
  · exact h _

theorem enterOpen_others (o : Option ReleaseEnd) : OtherDoors d s (enterOpen d o s) :=
  ((setDoor_others s d _).push (doorNotice_frame _ _ _)).push (handOnFirst_frame _ _)

theorem enterFault_others (o : Option ReleaseEnd) : OtherDoors d s (enterFault d o s) := by
  unfold enterFault; simp only []
  refine .push (.push (.push ?_ (doorNotice_frame _ _ _)) (giveDoorCmd_frame _ _ _)) (handOnFirst_frame _ _)
  have h (x : Door) : OtherDoors d s ((detachRelease d .abandoned false s).setDoor d x) :=
    (detachRelease_others s d _ _).trans (setDoor_others _ _ _)
  exact .ite (h _) ((h _).push (raiseAlarm_frame _ _ _ _))

theorem judgeTravel_others (n : Nat) : OtherDoors d s (judgeTravel d n s) := by
  unfold judgeTravel; simp only []
  have h (x : Door) : OtherDoors d s (doorNotice d none (s.setDoor d x)) := (setDoor_others s d x).push (doorNotice_frame _ _ _)
  exact .ite (.push (.ite (.refl _ _) (h _)) (raiseAlarm_frame _ _ _ _)) (.push (.ite (h _) (.refl _ _)) (endAlarm_frame _ _ _ _))

theorem enterSecured_others : OtherDoors d s (enterSecured d s) := by
  unfold enterSecured; simp only []
  refine .push (.push (.push (.push (.push (.push (.trans ?_ (setDoor_others _ _ _)) (endAlarm_frame _ _ _ _)) (endAlarm_frame _ _ _ _))
    (endAlarm_frame _ _ _ _)) (doorNotice_frame _ _ _)) (handOnFirst_frame _ _)) (handOn_frame _ _)
  split
  · exact detachRelease_others _ _ _ _
  · exact .refl _ _

/-! ### Reports -/

theorem forcedEffects_others : OtherDoors d s (forcedEffects d s) :=
  ((setDoor_others s d _).push (raiseAlarm_frame _ _ _ _)).push (addReason_frame _ _ _)

theorem forceOpen_others : OtherDoors d s (forceOpen d s) := by
  unfold forceOpen; simp only []
  have h := (detachRelease_others s d .cancelled false).trans (forcedEffects_others _ d)
  exact .ite (h.trans (enterFault_others _ _ _)) (h.trans (enterOpen_others _ _ _))

theorem contactOpen_others : OtherDoors d s (contactOpen d s) := by
  unfold contactOpen; simp only []
  have h := setDoor_others s d { s.door d with contact := .opened }
  generalize s.setDoor d { s.door d with contact := .opened } = t at h ⊢
  split
  · exact h.trans (enterOpen_others _ _ _)
  · exact h.trans (enterOpen_others _ _ _)
  · exact (h.trans (setDoor_others _ _ _)).trans (enterOpen_others _ _ _)
  · exact h.trans (forceOpen_others _ _)
  · exact h.trans (forceOpen_others _ _)
  · exact .trans (h.trans (setDoor_others _ _ _)) (.ite (enterFault_others _ _ _) (enterOpen_others _ _ _))
  · exact h
  · exact .ite h ((h.trans (forcedEffects_others _ _)).push (doorNotice_frame _ _ _))

theorem contactClosed_others : OtherDoors d s (contactClosed d s) := by
  unfold contactClosed; simp only []
  have h := (setDoor_others s d { s.door d with contact := .closed }).push (endAlarm_frame _ .doorHeld (some (zoneOf d)) (.door d))
  generalize endAlarm .doorHeld (some (zoneOf d)) (.door d) (s.setDoor d { s.door d with contact := .closed }) = t at h ⊢
  split
  · exact .ite (h.trans (enterThrowing_others _ _))
      (((h.trans (setDoor_others _ _ _)).push (doorNotice_frame _ _ _)).push (handOnFirst_frame _ _))
  · exact h.push (giveDoorCmd_frame _ _ _)
  · exact h

theorem boltArrived_others : OtherDoors d s (boltArrived d s) := by
  unfold boltArrived; simp only []
  split
  · exact .ite (enterThrowing_others _ _) (((setDoor_others _ _ _).push (doorNotice_frame _ _ _)).push (handOnFirst_frame _ _))
  · exact enterThrowing_others _ _

theorem boltStray_others : OtherDoors d s (boltStray d s) := (detachRelease_others s d _ _).trans (enterFault_others _ _ _)

theorem boltReport_others (w : Bool) (n : Nat) : OtherDoors d s (boltReport d w n s) := by
  unfold boltReport; simp only []
  have h := (setDoor_others s d { s.door d with bolt := if w then .withdrawn else .thrown, travel := n }).trans (judgeTravel_others _ d n)
  generalize judgeTravel d n _ = t at h ⊢
  have k : OtherDoors d s (if (t.door d).contact = .closed then enterSecured d t else t) := .ite (h.trans (enterSecured_others _ _)) h
  split
  · exact h.trans (boltArrived_others _ _)
  · exact h.trans (boltStray_others _ _)
  · exact h.trans (boltStray_others _ _)
  · exact k
  · exact k
  · exact h

theorem statusReport_others (o w : Bool) (n : Nat) : OtherDoors d s (statusReport d o w n s) := by
  unfold statusReport; simp only []
  have h := (setDoor_others s d
    { s.door d with contact := if o then .opened else .closed, bolt := if w then .withdrawn else .thrown, travel := n }).trans
      (judgeTravel_others _ d n)
  generalize judgeTravel d n _ = t at h ⊢
  have k := h.trans (enterSecured_others _ d)
  split
  · exact .ite k (.trans (h.trans (setDoor_others _ _ _))
      (.ite (enterFault_others _ _ _) (.ite (enterOpen_others _ _ _) (enterThrowing_others _ _))))
  · exact .ite k h
  · exact h

theorem stationLost_others : OtherDoors d s (stationLost d s) := by
  have un (o : Option ReleaseEnd) (t : State) : OtherDoors d t ((doorNotice d o
      (t.setDoor d { t.door d with state := .unverified, contact := .unknown, bolt := .unknown, boltTimer := none,
                                   heldOpen := none })).handOnFirst (.reevaluate (zoneOf d))) :=
    ((setDoor_others t d _).push (doorNotice_frame _ _ _)).push (handOnFirst_frame _ _)
  have dt (o : ReleaseEnd) (b : Bool) : OtherDoors d s (detachRelease d o b s) := detachRelease_others s d o b
  unfold stationLost; simp only []
  split
  · exact ((dt _ _).trans (un _ _)).push (addReason_frame _ _ _)
  · exact ((dt _ _).trans (un _ _)).push (addReason_frame _ _ _)
  · exact ((dt _ _).trans (un _ _)).push (addReason_frame _ _ _)
  · exact ((dt _ _).trans (un _ _)).push (addReason_frame _ _ _)
  · exact (dt _ _).trans (un _ _)
  · exact un _ _
  · exact un _ _
  · exact setDoor_others _ _ _

/-! ### Cutting short -/

theorem cutShort_others : OtherDoors d s (cutShort d s) := by
  unfold cutShort; split
  · split
    · exact .refl _ _
    · simp only []
      rename_i r _ _
      generalize hu : (if r.kind = ReleaseKind.hold then _ else s) = u
      have h : OtherDoors d s u := by rw [← hu]; exact .ite (setDoor_others _ _ _) (.refl _ _)
      split
      · exact h.trans (endQueued_others _ _ _)
      · exact h.trans (setDoor_others _ _ _)
      · exact h.trans (enterThrowing_others _ _)
      · exact h.trans (setDoor_others _ _ _)
      · exact h
  · exact .refl _ _

end Sys2Proof.Machine
end

