-- ==== Sys2Proof/Laws/HandOns.lean ====
section
/-! SUPPORT. What the alarm, roster and hours operations leave of the hand-ons that wait: all of them, and a claim adds the certainty it
changed (R19). -/
namespace Sys2Proof.Machine
set_option Elab.async false -- one proof at a time keeps the threads of a compile few

/-- Both states have the same hand-ons waiting. -/
def SameHandOns (s t : State) : Prop := t.work.handOns = s.work.handOns

variable (s : State)

theorem SameHandOns.refl : SameHandOns s s := rfl
theorem SameHandOns.trans {s t u : State} (h : SameHandOns s t) (k : SameHandOns t u) : SameHandOns s u := Eq.trans k h

theorem SameHandOns.fold {α : Type} {f : State → α → State} (h : ∀ t a, SameHandOns t (f t a)) :
    ∀ (l : List α) (s : State), SameHandOns s (l.foldl f s)
  | [], s => .refl s
  | a :: l, s => (h s a).trans (SameHandOns.fold h l (f s a))

/-! ### Alarms -/

theorem touchAlarms_handOns : SameHandOns s (touchAlarms s) := by unfold touchAlarms; split <;> rfl

theorem latchDistress_handOns (k : AlarmKind) (z : Option Zone) : SameHandOns s (latchDistress k z s) := by
  unfold latchDistress; split
  · split <;> rfl
  · rfl

theorem makeAlarm_handOns (r : AlarmRec) : SameHandOns s (makeAlarm r s) :=
  SameHandOns.trans (t := touchAlarms { s with alarms.queue := insertAlarm r s.alarms.queue }) (touchAlarms_handOns _) rfl

theorem raiseFull_handOns (r : AlarmRec) : SameHandOns s (raiseFull r s) := by
  unfold raiseFull; split
  · exact Eq.trans (makeAlarm_handOns _ _) (touchAlarms_handOns _)
  · split
    · split
      · refine Eq.trans (makeAlarm_handOns _ _) ?_
        show (State.work (if _ then _ else _)).handOns = _
        split
        · exact Eq.trans (latchDistress_handOns _ _ _) (touchAlarms_handOns _)
        · exact touchAlarms_handOns _
      · exact latchDistress_handOns _ _ _
    · rfl

theorem raiseAlarm_handOns (k : AlarmKind) (z : Option Zone) (x : Subject) : SameHandOns s (raiseAlarm k z x s) := by
  unfold raiseAlarm; split
  · exact touchAlarms_handOns { s with alarms.queue := _ }
  · split
    · exact makeAlarm_handOns _ _
    · exact raiseFull_handOns _ _

theorem endAlarm_handOns (k : AlarmKind) (z : Option Zone) (x : Subject) : SameHandOns s (endAlarm k z x s) := by
  unfold endAlarm; split
  · exact touchAlarms_handOns { s with alarms.queue := _ }
  · rfl

theorem endAlarms_handOns (p : AlarmRec → Bool) : SameHandOns s (endAlarms p s) :=
  SameHandOns.fold (fun _ _ => endAlarm_handOns _ _ _ _) _ _

/-! ### Notices and loop commands -/

theorem notify_handOns (k : NoticeKind) (z : Option Zone) (x : Subject) (d : List Byte) : SameHandOns s (s.notify k z x d) :=
  SameHandOns.fold (f := fun t p => t.placeNotice p _) (fun t p => by cases p <;> rfl) _ _

theorem giveCmd_handOns (l : LoopId) (a : SlotId) (c : CmdBody) : SameHandOns s (s.giveCmd l a c) := by
  unfold State.giveCmd; split <;> rfl

theorem indicate_handOns (z : Zone) (x : Side) (p : Pattern) : SameHandOns s (s.indicate z x p) := by
  unfold State.indicate; split
  · rfl
  · exact giveCmd_handOns _ _ _ _

/-! ### Claims -/

theorem endClaim_handOns (touched : Bool) (z : Zone) (before : State) : SameHandOns s (endClaim touched z before s) := by
  unfold endClaim bumpGeneration noticeZone; split <;> split <;> rfl

theorem amendEntries_handOns (z : Zone) (f : Entry → Entry) : SameHandOns s (amendEntries z f s) :=
  endClaim_handOns { s with pool := _ } _ _ _

theorem evalWarning_handOns (z : Zone) (checkIn : Bool) : SameHandOns s (evalWarning z checkIn s) := by
  unfold evalWarning; split
  · exact indicate_handOns (s.setWarning z _) _ _ _
  · simp only []; split
    · rfl
    · exact indicate_handOns (s.setWarning z _) _ _ _
  · rfl

theorem loneRule_handOns (z : Zone) : SameHandOns s (loneRule z s) := by
  unfold loneRule; split
  · rfl
  · split <;> exact amendEntries_handOns _ _ _

theorem clearPairing_handOns (z : Zone) (c : PassageReason) (b : Bool) : SameHandOns s (clearPairing z c b s) := by
  unfold clearPairing; split
  · simp only []; split
    · exact (notify_handOns (dropPairing z s) _ _ _ _).trans (indicate_handOns _ _ _ _)
    · exact notify_handOns (dropPairing z s) _ _ _ _
  · rfl

theorem markVisitors_handOns (z : Zone) : SameHandOns s (markVisitors z s) := by
  refine SameHandOns.fold (fun t e => ?_) _ _
  unfold markUnescorted; split
  · exact (amendEntries_handOns _ _ _).trans (raiseAlarm_handOns _ _ _ _)
  · rfl

theorem hoursTakesClaim_handOns (touched : Bool) (z : Zone) (before : State) :
    SameHandOns s (hoursTakesClaim touched z before s) := by
  have h1 : SameHandOns s (if (before.badgedCount z != s.badgedCount z || before.anonymousCount z != s.anonymousCount z) = true
      then loneRule z s else s) := by
    split
    · exact loneRule_handOns _ _
    · rfl
  unfold hoursTakesClaim
  generalize (if (before.badgedCount z != s.badgedCount z || before.anonymousCount z != s.anonymousCount z) = true
      then loneRule z s else s) = t at h1 ⊢
  simp only []
  have h2 : SameHandOns s (if (before.roster z == [] && s.roster z != []) = true then clearPairing z .pairCleared true t else t) := by
    split
    · exact h1.trans (clearPairing_handOns _ _ _ _)
    · exact h1
  split
  · exact h2.trans (evalWarning_handOns _ _ _)
  · exact h2

theorem alarmTakesClaim_handOns (z : Zone) (before : State) : SameHandOns s (alarmTakesClaim z before s) := by
  unfold alarmTakesClaim; simp only []
  have h1 := endAlarms_handOns s (endedByClaim z (removedBadged z before s)
    (before.certainty z == .uncertain && s.certainty z != .uncertain))
  generalize endAlarms _ s = t at h1 ⊢
  have h2 : SameHandOns s (if ((removedBadged z before s).any fun e => e.role == .escort) = true then markVisitors z t else t) := by
    split
    · exact h1.trans (markVisitors_handOns _ _)
    · exact h1
  generalize (if ((removedBadged z before s).any fun e => e.role == .escort) = true then markVisitors z t else t) = u at h2 ⊢
  split
  · exact h2.trans ((amendEntries_handOns _ _ _).trans (endAlarms_handOns _ _))
  · exact h2

/-- A claim hands on the certainty its own end left, when that is another than before (R19), after what was handed on already. -/
theorem claimWith_handOns (touched : Bool) (z : Zone) (f : State → State) : let own := endClaim touched z s (f s)
    (claimWith touched z f s).work.handOns
      = (f s).work.handOns ++ (if s.certainty z = own.certainty z then [] else [.certainty z (own.certainty z)]) := by
  simp only []
  have h : SameHandOns (handCertainty z s (endClaim touched z s (f s))) (claimWith touched z f s) :=
    (hoursTakesClaim_handOns _ _ _ _).trans (alarmTakesClaim_handOns _ _ _)
  rw [h]
  have k : (endClaim touched z s (f s)).work.handOns = (f s).work.handOns := endClaim_handOns _ _ _ _
  unfold handCertainty; split
  · simp [k]
  · simp [State.handOn, k]

/-- A claim keeps every hand-on that waits. -/
theorem claimWith_keeps (touched : Bool) (z : Zone) (f : State → State) {h : HandOn} (hk : h ∈ (f s).work.handOns) :
    h ∈ (claimWith touched z f s).work.handOns := by
  rw [claimWith_handOns]; exact List.mem_append_left _ hk

end Sys2Proof.Machine
end

