-- ==== Sys2Proof/Laws/Passage.lean ====
section
/-! SUPPORT. What a decision tells the reader and the access port, which door and release a grant meets, and the number of a new group. -/
namespace Sys2Proof.Machine
set_option Elab.async false -- one proof at a time keeps the threads of a compile few

variable {s t u : State}

/-! ### What a decision tells -/

/-- INDICATE reaches the reader's queue as R169 gives it, or is not sent. -/
theorem indicate_sent (s : State) (z : Zone) (side : Side) (x : Pattern) : ReaderSent z side x s (s.indicate z side x) := by
  have hz : zoneOf (readerDoor z side) = z := by cases side <;> simp only [readerDoor] <;> revert z <;> decide
  have hd : s.giveDoorCmd (readerDoor z side) (.indicate side x)
      = s.giveCmd (loopOf z) (slotOf (readerDoor z side)) (.indicate side x) := by unfold State.giveDoorCmd; rw [hz]
  unfold ReaderSent; simp only []
  by_cases he : (!s.inEvacuation z || x == .evacuate) = true
  · have h1 : s.indicate z side x = s.giveCmd (loopOf z) (slotOf (readerDoor z side)) (.indicate side x) := by
      unfold State.indicate; rw [if_neg, hd]
      intro h; cases hx : s.inEvacuation z <;> simp_all
    rw [h1, he]; unfold State.giveCmd
    split
    · rename_i hc
      refine ⟨?_, fun l hl => loop_setLoop_ne s _ hl, rfl⟩
      rw [loop_setLoop, if_pos (by simpa [hc.1] using hc.2)]
      unfold enqueueCmd; simp only [reduceCtorEq, if_false]
    · rename_i hc
      refine ⟨?_, fun _ _ => rfl, rfl⟩
      rw [if_neg]; simpa using hc
  · have h1 : s.indicate z side x = s := by unfold State.indicate; rw [if_pos]; cases hx : s.inEvacuation z <;> simp_all
    rw [h1, if_neg (by simp only [Bool.not_eq_true] at he; simp [he])]
    exact ⟨rfl, fun _ _ => rfl, rfl⟩

/-- A PASSAGE_DECIDED notice is placed at the access port alone (R68, R189). -/
theorem noticePassage_ports (d : DoorId) (b : Badge) (x : Source) (o : Decided) (r : PassageReason) (g : Option Nat)
    (es : List EntryNo) (q : Option Byte) : (noticePassage d b x o r g es q s) = s.placeNotice .access
      ⟨.passageDecided, s.uptime, some (zoneOf d), .door d, byte4 b.toNat ++ byte1 x.code ++ byte1 o.code
        ++ [Config.passageReasonCode r.index] ++ byteOption byte1 g ++ byteList (fun (n : EntryNo) => byte1 n.val) es
        ++ byteOption (fun (q : Byte) => [q]) q⟩ := rfl

/-- A notice given after the reader's pattern, if any, decides the presentation. -/
theorem decidedAs_of (d : DoorId) (side : Side) (pattern : Option Pattern) (b : Badge) (x : Source) (o : Decided) (r : PassageReason)
    (g : Option Nat) (es : List EntryNo) (q : Option Byte) (hs : ∀ y, pattern = some y → t = s.indicate (zoneOf d) side y)
    (hn : pattern = none → t = s) : DecidedAs d side pattern b x o r g es q s (noticePassage d b x o r g es q t) := by
  have ft : SameBut [.loops] s t := by
    rcases pattern with _ | y
    · rw [hn rfl]; exact .refl _ _
    · rw [hs y rfl]; exact indicate_frame _ _ _ _
  have fn := noticePassage_frame t d b x o r g es q
  have hp : ∀ p, t.port p = s.port p := fun p => port_congr ft.ports p
  refine ⟨fun y hy => ?_, fun h => ?_, ?_, fun p hne => ?_, (ft.mono (by decide)).push fn (by decide)⟩
  · have h := indicate_sent s (zoneOf d) side y
    rw [← hs y hy] at h
    unfold ReaderSent at h ⊢; simp only [] at h ⊢
    simp only [loop_congr fn.loops, fn.loops]; exact h
  · rw [fn.loops, hn h]
  · rw [noticePassage_ports]; unfold State.placeNotice; rw [port_setPort, hp, uptime_congr ft.now]
  · rw [noticePassage_ports]; unfold State.placeNotice; rw [port_setPort_ne _ _ hne, hp]

/-- A decision that sends the reader a pattern. -/
theorem decidedAs_indicate (s : State) (d : DoorId) (side : Side) (pattern : Pattern) (b : Badge) (x : Source) (o : Decided)
    (r : PassageReason) (g : Option Nat) (es : List EntryNo) (q : Option Byte) :
    DecidedAs d side (some pattern) b x o r g es q s (noticePassage d b x o r g es q (s.indicate (zoneOf d) side pattern)) :=
  decidedAs_of d side _ b x o r g es q (fun y hy => by cases hy; rfl) (fun h => by cases h)

theorem denyPresentation_decided (s : State) (p : Presentation) (x : Source) (r : PassageReason) :
    DecidedAs p.door .corridor (some .denied) p.badge x .denied r none [] p.query s (denyPresentation p x r s) :=
  decidedAs_indicate _ _ _ _ _ _ _ _ _ _ _

theorem waitPresentation_decided (s : State) (p : Presentation) (x : Source) :
    DecidedAs p.door .corridor (some .wait) p.badge x .wait .doorBusy none [] p.query s (waitPresentation p x s) :=
  decidedAs_indicate _ _ _ _ _ _ _ _ _ _ _

theorem tellReader_decided (s : State) (d : DoorId) (side : Side) (b : Badge) (x : Pattern) (o : Decided) (r : PassageReason) :
    DecidedAs d side (some x) b .none o r none [] none s (tellReader d side b x o r s) := decidedAs_indicate _ _ _ _ _ _ _ _ _ _ _

/-- A refusal for policy: the pattern that fits its cause and the notice (R57, R72). -/
theorem policy_decided (s : State) (d : DoorId) (side : Side) (b : Badge) :
    DecidedAs d side
      (if s.inEvacuation (zoneOf d) then none else if s.lockdownFlag (zoneOf d) then some .lockdown else some .denied)
      b .none .denied .policy none [] none s
      (noticePassage d b .none .denied .policy none [] none (indicatePolicy (zoneOf d) side s)) := by
  refine decidedAs_of d side _ b _ _ _ _ _ _ (fun y hy => ?_) (fun h => ?_)
  · unfold indicatePolicy; split at hy
    · cases hy
    · rename_i he; rw [if_neg he]; split at hy <;> cases hy <;> rename_i hl <;> simp [hl]
  · unfold indicatePolicy; split at h
    · rename_i he; rw [if_pos he]
    · split at h <;> cases h

/-! ### The group's number (R70) -/

theorem groupInUse_iff (s : State) (k : Nat) : s.groupInUse k = true ↔
    (∃ e ∈ s.pool, e.group = some k) ∨ ∃ y r, (s.door y).release = some r ∧ r.group = some k := by
  have all : ∀ y : DoorId, y ∈ allDoors := by decide
  have hd : ∀ y, (s.door y).group = some k ↔ ∃ r, (s.door y).release = some r ∧ r.group = some k := by
    intro y; unfold Door.group; cases (s.door y).release <;> simp
  unfold State.groupInUse
  simp only [Bool.or_eq_true, List.any_eq_true, beq_iff_eq, hd]
  constructor
  · rintro (h | ⟨y, -, h⟩)
    · exact .inl h
    · exact .inr ⟨y, h⟩
  · rintro (h | ⟨y, h⟩)
    · exact .inl h
    · exact .inr ⟨y, all y, h⟩

theorem groupAfter_mod {g : Nat} (h : g ≤ 255) : groupAfter g = g % 255 + 1 := by unfold groupAfter; split <;> omega

/-- The search from the successor of a number finds the first free one, if one of the next `n` is free. -/
theorem freeGroup_first (s : State) {g : Nat} (_h : g ≤ 255) (n i : Nat)
    (hf : ∃ j, i ≤ j ∧ j < i + n ∧ s.groupInUse ((g + j) % 255 + 1) = false) :
    ∃ j, i ≤ j ∧ j < i + n ∧ freeGroup s n ((g + i) % 255 + 1) = (g + j) % 255 + 1
      ∧ s.groupInUse ((g + j) % 255 + 1) = false ∧ ∀ k, i ≤ k → k < j → s.groupInUse ((g + k) % 255 + 1) = true := by
  induction n generalizing i with
  | zero => obtain ⟨j, h1, h2, -⟩ := hf; omega
  | succ n ih =>
    unfold freeGroup
    by_cases hi : s.groupInUse ((g + i) % 255 + 1) = true
    · rw [if_pos hi]
      have step : groupAfter ((g + i) % 255 + 1) = (g + (i + 1)) % 255 + 1 := by
        rw [groupAfter_mod (by omega)]; omega
      obtain ⟨j, h1, h2, h3⟩ := hf
      have hne : j ≠ i := by rintro rfl; rw [hi] at h3; cases h3
      obtain ⟨k, k1, k2, k3, k4, k5⟩ := ih (i + 1) ⟨j, by omega, by omega, h3⟩
      refine ⟨k, by omega, by omega, by rw [step]; exact k3, k4, fun m m1 m2 => ?_⟩
      by_cases hm : m = i
      · rw [hm]; exact hi
      · exact k5 m (by omega) m2
    · rw [if_neg hi]; exact ⟨i, Nat.le_refl _, by omega, rfl, by simpa using hi, fun k _ _ => by omega⟩

/-- A new group's number is the first after the last chosen that is free (R70). -/
theorem newGroup_first (s : State) (h : s.passage.lastGroup ≤ 255) (hf : ∃ k, 1 ≤ k ∧ k ≤ 255 ∧ s.groupInUse k = false) :
    ∃ j, j < 255 ∧ newGroup s = (s.passage.lastGroup + j) % 255 + 1 ∧ s.groupInUse (newGroup s) = false
      ∧ ∀ i, i < j → s.groupInUse ((s.passage.lastGroup + i) % 255 + 1) = true := by
  obtain ⟨k, k1, k2, k3⟩ := hf
  have hk : ∃ j, 0 ≤ j ∧ j < 0 + 255 ∧ s.groupInUse ((s.passage.lastGroup + j) % 255 + 1) = false := by
    refine ⟨(k + 254 + 255 - s.passage.lastGroup % 255) % 255, by omega, by omega, ?_⟩
    have : (s.passage.lastGroup + (k + 254 + 255 - s.passage.lastGroup % 255) % 255) % 255 + 1 = k := by omega
    rw [this]; exact k3
  obtain ⟨j, -, j2, j3, j4, j5⟩ := freeGroup_first s h 255 0 hk
  have hn : newGroup s = (s.passage.lastGroup + j) % 255 + 1 := by
    unfold newGroup; rw [groupAfter_mod h]; exact j3
  exact ⟨j, by omega, hn, by rw [hn]; exact j4, fun i hi => j5 i (by omega) hi⟩

/-! ### The release a grant meets (R65) -/

/-- The joinable release, spelled out. -/
theorem joinableGroup_iff (s : State) (z : Zone) (k : Nat) : joinableGroup s z = some k ↔
    ((s.door (outerDoor z)).state = .queued ∨ (s.door (outerDoor z)).state = .withdrawing ∨ (s.door (outerDoor z)).state = .unlocked)
      ∧ (s.zonePassage z).entryGroup = some k
      ∧ ∃ r, (s.door (outerDoor z)).release = some r ∧ r.kind = .passage ∧ r.origin = .reader ∧ r.group = some k
          ∧ r.opened = false := by
  unfold joinableGroup; simp only []
  split
  · rename_i r g hr hg
    rw [hr, hg]
    split
    · rename_i h
      obtain ⟨h1, h2, h3, h4, h5⟩ := h
      constructor
      · intro e; cases e; exact ⟨h5, rfl, r, rfl, h1, h2, h3, by simpa using h4⟩
      · rintro ⟨-, e, -⟩; exact e
    · rename_i h
      constructor
      · intro e; cases e
      · rintro ⟨a1, e, r', hr', a2, a3, a4, a5⟩
        cases hr'; cases e
        exact absurd ⟨a2, a3, a4, by simp [a5], a1⟩ h
  · rename_i h
    constructor
    · intro e; cases e
    · rintro ⟨-, e, r, hr, -⟩; exact absurd e (h r k hr)

end Sys2Proof.Machine
end

