-- ==== Sys2Proof/Laws/PerInstr.lean ====
section
/-! SUPPORT. Facts about commands as syntax, one lemma per command: a command that sends a request is well formed exactly when the
request fits its payload. -/
namespace Sys2Proof.Machine
set_option Elab.async false -- one proof at a time keeps the threads of a compile few

/-- The command that sends a request is well formed exactly when the request is. -/
theorem wf_command (p : PortId) (r : Request) : Instr.wf (Request.command p r) = Request.wf r := by cases r <;> rfl

end Sys2Proof.Machine

namespace Sys2Proof.Laws

/-- A command that sends a request is well formed exactly when the request fits its payload. -/
def Operands.Statement (c : Instr) : Prop :=
  ∀ (p : PortId) (r : Request), c = Machine.Request.command p r → Instr.wf c = Request.wf r

theorem Operands.of_command (c : Instr) : Operands.Statement c := fun p r h => h ▸ Machine.wf_command p r

theorem Operands.reset : Operands.Statement (.reset) := Operands.of_command _
theorem Operands.recordLoad (record : RecordId) : Operands.Statement (.recordLoad record) := Operands.of_command _
theorem Operands.frameReceived (port : PortId) (bytes : List Byte) : Operands.Statement (.frameReceived port bytes) := Operands.of_command _
theorem Operands.transactionCutShort (port : PortId) : Operands.Statement (.transactionCutShort port) := Operands.of_command _
theorem Operands.selectHeldTimeout (port : PortId) : Operands.Statement (.selectHeldTimeout port) := Operands.of_command _
theorem Operands.readZone (port : PortId) (zone : Byte) : Operands.Statement (.readZone port zone) := Operands.of_command _
theorem Operands.readRoster (port : PortId) (zone first : Byte) : Operands.Statement (.readRoster port zone first) := Operands.of_command _
theorem Operands.readDoor (port : PortId) (door : Byte) : Operands.Statement (.readDoor port door) := Operands.of_command _
theorem Operands.readAlarms (port : PortId) (first : Byte) : Operands.Statement (.readAlarms port first) := Operands.of_command _
theorem Operands.readSuppression (port : PortId) (zone : Byte) : Operands.Statement (.readSuppression port zone) := Operands.of_command _
theorem Operands.readStatus (port : PortId) : Operands.Statement (.readStatus port) := Operands.of_command _
theorem Operands.readConfig (port : PortId) (which : ConfigSelector) : Operands.Statement (.readConfig port which) := Operands.of_command _
theorem Operands.fetchNotice (port : PortId) : Operands.Statement (.fetchNotice port) := Operands.of_command _
theorem Operands.verdict (port : PortId) (args : VerdictArgs) : Operands.Statement (.verdict port args) := Operands.of_command _
theorem Operands.cacheLoad (port : PortId) (entries : List CacheArgs) : Operands.Statement (.cacheLoad port entries) := Operands.of_command _
theorem Operands.cachePurge (port : PortId) (which : BadgeOrAll) : Operands.Statement (.cachePurge port which) := Operands.of_command _
theorem Operands.setClock (port : PortId) (value : Word) : Operands.Statement (.setClock port value) := Operands.of_command _
theorem Operands.writeSchedule (port : PortId) (windows : List WindowArgs) : Operands.Statement (.writeSchedule port windows) := Operands.of_command _
theorem Operands.holdDoor (port : PortId) (door : Byte) : Operands.Statement (.holdDoor port door) := Operands.of_command _
theorem Operands.secureDoor (port : PortId) (door : Byte) : Operands.Statement (.secureDoor port door) := Operands.of_command _
theorem Operands.writePassageConfig (port : PortId) (form : PassageForm) : Operands.Statement (.writePassageConfig port form) := Operands.of_command _
theorem Operands.detect (port : PortId) (zone detector : Byte) : Operands.Statement (.detect port zone detector) := Operands.of_command _
theorem Operands.clearDetect (port : PortId) (zone detector : Byte) : Operands.Statement (.clearDetect port zone detector) := Operands.of_command _
theorem Operands.holdZone (port : PortId) (zone : Byte) : Operands.Statement (.holdZone port zone) := Operands.of_command _
theorem Operands.unholdZone (port : PortId) (zone : Byte) : Operands.Statement (.unholdZone port zone) := Operands.of_command _
theorem Operands.cancel (port : PortId) (zone : Byte) : Operands.Statement (.cancel port zone) := Operands.of_command _
theorem Operands.forceRelease (port : PortId) (zone : Byte) : Operands.Statement (.forceRelease port zone) := Operands.of_command _
theorem Operands.vent (port : PortId) (zone : Byte) : Operands.Statement (.vent port zone) := Operands.of_command _
theorem Operands.restore (port : PortId) (zone : Byte) : Operands.Statement (.restore port zone) := Operands.of_command _
theorem Operands.isolate (port : PortId) (zone : Byte) : Operands.Statement (.isolate port zone) := Operands.of_command _
theorem Operands.deisolate (port : PortId) (zone : Byte) : Operands.Statement (.deisolate port zone) := Operands.of_command _
theorem Operands.writeSuppressionConfig (port : PortId) (zone : Byte) (fields : SuppressionFields) : Operands.Statement (.writeSuppressionConfig port zone fields) := Operands.of_command _
theorem Operands.ackAlarm (port : PortId) (which : AckArgs) : Operands.Statement (.ackAlarm port which) := Operands.of_command _
theorem Operands.clearAlarm (port : PortId) (which : ClearArgs) : Operands.Statement (.clearAlarm port which) := Operands.of_command _
theorem Operands.resolveZone (port : PortId) (zone : Byte) : Operands.Statement (.resolveZone port zone) := Operands.of_command _
theorem Operands.verifyZone (port : PortId) (zone inner vestibule : Byte) : Operands.Statement (.verifyZone port zone inner vestibule) := Operands.of_command _
theorem Operands.removeOccupant (port : PortId) (badge : Badge) : Operands.Statement (.removeOccupant port badge) := Operands.of_command _
theorem Operands.lockdown (port : PortId) (which : ZoneOrAll) : Operands.Statement (.lockdown port which) := Operands.of_command _
theorem Operands.endLockdown (port : PortId) (which : ZoneOrAll) : Operands.Statement (.endLockdown port which) := Operands.of_command _
theorem Operands.concurForce (port : PortId) (zone : Byte) : Operands.Statement (.concurForce port zone) := Operands.of_command _
theorem Operands.sweepAll (port : PortId) : Operands.Statement (.sweepAll port) := Operands.of_command _
theorem Operands.excludeSweep (port : PortId) (zone : Byte) : Operands.Statement (.excludeSweep port zone) := Operands.of_command _
theorem Operands.includeSweep (port : PortId) (zone : Byte) : Operands.Statement (.includeSweep port zone) := Operands.of_command _
theorem Operands.setService (port : PortId) (zone direction : Byte) : Operands.Statement (.setService port zone direction) := Operands.of_command _
theorem Operands.enableForceChord (port : PortId) (value : Byte) : Operands.Statement (.enableForceChord port value) := Operands.of_command _
theorem Operands.storeCommit : Operands.Statement (.storeCommit) := Operands.of_command _
theorem Operands.loopExchange (loop : LoopId) : Operands.Statement (.loopExchange loop) := Operands.of_command _
theorem Operands.stationReply (loop : LoopId) (bytes : List Byte) : Operands.Statement (.stationReply loop bytes) := Operands.of_command _
theorem Operands.replyWindowMiss (loop : LoopId) : Operands.Statement (.replyWindowMiss loop) := Operands.of_command _
theorem Operands.loopBreak (loop : LoopId) : Operands.Statement (.loopBreak loop) := Operands.of_command _
theorem Operands.loopRestored (loop : LoopId) : Operands.Statement (.loopRestored loop) := Operands.of_command _
theorem Operands.queryTimeout (queryId : Byte) : Operands.Statement (.queryTimeout queryId) := Operands.of_command _
theorem Operands.cacheExpiry (badge : Badge) : Operands.Statement (.cacheExpiry badge) := Operands.of_command _
theorem Operands.settleEnd (door : DoorId) : Operands.Statement (.settleEnd door) := Operands.of_command _
theorem Operands.queuedWaitExpiry (door : DoorId) : Operands.Statement (.queuedWaitExpiry door) := Operands.of_command _
theorem Operands.railRoom (rail : Rail) : Operands.Statement (.railRoom rail) := Operands.of_command _
theorem Operands.boltTimerExpiry (door : DoorId) : Operands.Statement (.boltTimerExpiry door) := Operands.of_command _
theorem Operands.windowLapse (door : DoorId) : Operands.Statement (.windowLapse door) := Operands.of_command _
theorem Operands.heldOpenExpiry (door : DoorId) : Operands.Statement (.heldOpenExpiry door) := Operands.of_command _
theorem Operands.minuteBoundary : Operands.Statement (.minuteBoundary) := Operands.of_command _
theorem Operands.loneWorkerDeadlineExpiry (entry : EntryNo) : Operands.Statement (.loneWorkerDeadlineExpiry entry) := Operands.of_command _
theorem Operands.warningLeadReached (entry : EntryNo) : Operands.Statement (.warningLeadReached entry) := Operands.of_command _
theorem Operands.warnCheckinResend (zone : Zone) : Operands.Statement (.warnCheckinResend zone) := Operands.of_command _
theorem Operands.pairExpired (zone : Zone) : Operands.Statement (.pairExpired zone) := Operands.of_command _
theorem Operands.countdownExpiry (zone : Zone) : Operands.Statement (.countdownExpiry zone) := Operands.of_command _
theorem Operands.confirmTimeout (zone : Zone) : Operands.Statement (.confirmTimeout zone) := Operands.of_command _
theorem Operands.soakComplete (zone : Zone) : Operands.Statement (.soakComplete zone) := Operands.of_command _
theorem Operands.forceWindowExpired : Operands.Statement (.forceWindowExpired) := Operands.of_command _
theorem Operands.sweepIntervalExpiry : Operands.Statement (.sweepIntervalExpiry) := Operands.of_command _
theorem Operands.lineLevelTaken (line : LineId) : Operands.Statement (.lineLevelTaken line) := Operands.of_command _
theorem Operands.qualificationHoldExpiry (line : LineId) : Operands.Statement (.qualificationHoldExpiry line) := Operands.of_command _
theorem Operands.chordQualifies : Operands.Statement (.chordQualifies) := Operands.of_command _
theorem Operands.sounderCadence (zone : Zone) : Operands.Statement (.sounderCadence zone) := Operands.of_command _
theorem Operands.candidateChange (line : LineId) (level : Level) : Operands.Statement (.candidateChange line level) := Operands.of_command _
theorem Operands.transactionEnd (port : PortId) : Operands.Statement (.transactionEnd port) := Operands.of_command _

end Sys2Proof.Laws
end

