-- ==== Sys2Proof/Laws/Rails.lean ====
section
/-! SUPPORT. What the rails' operations do: leaving a rail (R30, R50), a withdrawal that begins (R33, R48), the offer of a release to its
rail (R48, R49) and the re-evaluation of a QUEUED release (R30, R31). -/
namespace Sys2Proof.Machine
set_option Elab.async false -- one proof at a time keeps the threads of a compile few

variable {s t : State} {d : DoorId}

/-! ### What a release's place on a rail reads -/

theorem isEgress_of_door (h : ∀ y, (t.door y).release.map (·.kind) = (s.door y).release.map (·.kind)) : t.isEgress = s.isEgress := by
  funext y; have := h y; unfold State.isEgress; revert this
  cases (t.door y).release <;> cases (s.door y).release <;> simp
  rintro h; rw [h]

theorem isEgress_of_release {r : Release} (h : (s.door d).release = some r) : s.isEgress d = (r.kind == .egress) := by simp [State.isEgress, h]

theorem railOf_of_store (h : t.store = s.store) (y : DoorId) : t.railOf y = s.railOf y := by simp [State.railOf, cfg_congr h]

theorem railHasRoom_of_rail {k : Rail} (h : t.rail k = s.rail k) (n : t.now = s.now) : t.railHasRoom k = s.railHasRoom k := by
  unfold State.railHasRoom State.recentStarts; rw [h, n]

/-- The other door of a zone is another door. -/
theorem otherDoor_ne (d : DoorId) : otherDoor d ≠ d := by revert d; decide

/-- A zone's doors are a door of it and the other. -/
theorem doorsOf (d : DoorId) : (outerDoor (zoneOf d) = d ∧ innerDoor (zoneOf d) = otherDoor d)
    ∨ (innerDoor (zoneOf d) = d ∧ outerDoor (zoneOf d) = otherDoor d) := by revert d; decide

/-! ### Queues -/

theorem mem_joinQueue {f : DoorId → Bool} {q : List DoorId} {x : DoorId} : d ∈ joinQueue f x q ↔ d = x ∨ d ∈ q := by
  unfold joinQueue; split
  · simp only [List.mem_append, List.mem_filter, List.mem_singleton]; cases f d <;> simp [or_comm]
  · simp [or_comm]

theorem mem_refillQueue {f : DoorId → Bool} {x : RailRec} (h : d ∈ x.queue) : d ∈ (refillQueue f x).queue := by
  unfold refillQueue; split
  · split
    · exact mem_joinQueue.2 (.inr h)
    · exact h
  · exact h

theorem not_mem_refillQueue {f : DoorId → Bool} {x : RailRec} (h : d ∉ x.queue) (k : d ∉ x.outside) :
    d ∉ (refillQueue f x).queue ∧ d ∉ (refillQueue f x).outside := by
  unfold refillQueue; split
  · rename_i y rest e
    rw [e] at k; simp at k
    split
    · exact ⟨fun m => (mem_joinQueue.1 m).elim k.1 h, k.2⟩
    · exact ⟨h, by rw [e]; simpa using k⟩
  · exact ⟨h, k⟩

theorem refillQueue_history (f : DoorId → Bool) (x : RailRec) : (refillQueue f x).history = x.history := by
  unfold refillQueue; split
  · split <;> rfl
  · rfl

theorem pushHistory_last (n : Nat) (h : List Nat) : (pushHistory n h).getLast? = some n := by
  unfold pushHistory
  rw [List.getLast?_drop, if_neg (by simp only [Config.railBudget, List.length_append, List.length_singleton]; omega)]
  simp

variable (s d)

theorem leaveRail_rail : (leaveRail d s).rail (s.railOf d) = refillQueue s.isEgress
    { s.rail (s.railOf d) with queue := ((s.rail (s.railOf d)).queue.filter (· != d)),
                               outside := ((s.rail (s.railOf d)).outside.filter (· != d)) } := by
  simp [leaveRail]

theorem leaveRail_rail_ne {j : Rail} (h : j ≠ s.railOf d) : (leaveRail d s).rail j = s.rail j := rail_setRail_ne s _ h

theorem leaveRail_gone : d ∉ ((leaveRail d s).rail (s.railOf d)).queue ∧ d ∉ ((leaveRail d s).rail (s.railOf d)).outside := by
  rw [leaveRail_rail]; exact not_mem_refillQueue (by simp) (by simp)

/-- A door that stands in a queue stands there still when another leaves a rail. -/
theorem leaveRail_keeps {y : DoorId} {k : Rail} (h : y ≠ d) (m : y ∈ (s.rail k).queue) : y ∈ ((leaveRail d s).rail k).queue := by
  by_cases e : k = s.railOf d
  · subst e; rw [leaveRail_rail]; exact mem_refillQueue (by simp [m, h])
  · rwa [leaveRail_rail_ne s d e]

/-! ### A withdrawal begins -/

theorem doorNotice_door (o : Option ReleaseEnd) (y : DoorId) : (doorNotice d o s).door y = s.door y := rfl

/-- The door whose withdrawal begins (R33). -/
theorem beginWithdrawal_self : (beginWithdrawal d s).door d
    = { s.door d with state := .withdrawing, boltTimer := some (s.now + s.boltMs d),
                      release := (s.door d).release.map fun q => { q with wait := WaitSet.empty } } := by
  have key (t : State) : ((if isOuter d = true then t
      else t.setZonePassage (zoneOf d) { t.zonePassage (zoneOf d) with tallyIn := 0, tallyOut := 0 }).handOnFirst
        (.reevaluate (zoneOf d))).door d = t.door d := by split <;> rfl
  unfold beginWithdrawal; simp only []
  rw [key, door_congr (giveDoorCmd_frame _ _ _).doors, doorNotice_door, door_setDoor]
  simp [leaveRail, State.boltMs, cfg_congr (setRail_frame _ _ _).store]

theorem beginWithdrawal_rails (j : Rail) : (beginWithdrawal d s).rail j
    = if j = s.railOf d then { (leaveRail d s).rail j with history := pushHistory s.now (s.rail j).history } else s.rail j := by
  have key (t : State) : ((if isOuter d = true then t
      else t.setZonePassage (zoneOf d) { t.zonePassage (zoneOf d) with tallyIn := 0, tallyOut := 0 }).handOnFirst
        (.reevaluate (zoneOf d))).rail j = t.rail j := by split <;> exact rail_congr rfl j
  have no (t : State) : (doorNotice d none t).rail j = t.rail j := rail_congr rfl j
  have hr : (leaveRail d s).railOf d = s.railOf d := railOf_of_store (leaveRail_frame s d).store d
  have hh : ((leaveRail d s).rail (s.railOf d)).history = (s.rail (s.railOf d)).history := by rw [leaveRail_rail, refillQueue_history]
  unfold beginWithdrawal; simp only []
  rw [key, rail_congr (giveDoorCmd_frame _ _ _).doors, no, rail_setDoor, hr]
  split
  · rename_i e; subst e
    rw [rail_setRail, hh, (leaveRail_frame s d).now]
  · rename_i e; rw [rail_setRail_ne _ _ e, leaveRail_rail_ne s d e]

/-- A withdrawal that begins is the newest of its rail's history (R48). -/
theorem beginWithdrawal_history : ((beginWithdrawal d s).rail (s.railOf d)).history.getLast? = some s.now := by
  rw [beginWithdrawal_rails, if_pos rfl]; exact pushHistory_last _ _

/-! ### A release is offered to its rail -/

theorem setWait_self (w : WaitSet) {r : Release} (h : (s.door d).release = some r) :
    (setWait d w s).door d = { s.door d with release := some { r with wait := w } } := by simp [setWait, h]

theorem setWait_rail (w : WaitSet) (j : Rail) : (setWait d w s).rail j = s.rail j := rail_setDoor s _ _ _

theorem setWait_isEgress (w : WaitSet) : (setWait d w s).isEgress = s.isEgress := by
  refine isEgress_of_door fun y => ?_
  by_cases e : y = d
  · subst e; simp [setWait, Option.map_map]; rfl
  · rw [setWait_others s d w y e]

theorem endQueued_self (o : ReleaseEnd) : (endQueued d o s).door d = { s.door d with state := .secured, release := none } := by
  unfold endQueued; simp only []
  have k (t : State) : ((((doorNotice d (some o) t).handOnFirst (.reevaluate (zoneOf d))).handOn (.secured d))).door d = t.door d := rfl
  rw [k, door_setDoor]
  unfold detachRelease; split
  · rw [door_congr (handOn_frame _ _).doors, door_setDoor]
  · rename_i h; cases e : s.door d; rw [e] at h; simp at h; simp [h]

theorem endQueued_rail (o : ReleaseEnd) (j : Rail) :
    (endQueued d o s).rail j = if (s.door d).release.isSome then (leaveRail d s).rail j else s.rail j := by
  have k (t : State) : ((((doorNotice d (some o) t).handOnFirst (.reevaluate (zoneOf d))).handOn (.secured d))).rail j = t.rail j :=
    rail_congr rfl j
  unfold endQueued; simp only []
  rw [k, rail_setDoor]
  unfold detachRelease
  cases h : (s.door d).release with
  | none => simp
  | some r => simp only [Option.isSome_some, if_true]; rw [rail_congr (handOn_frame _ _).doors, rail_setDoor]

/-- A QUEUED release that ends is handed on (R32, R49, R51). -/
theorem endQueued_handsOn (o : ReleaseEnd) {r : Release} (h : (s.door d).release = some r) :
    HandOn.released d r o false ∈ (endQueued d o s).work.handOns := by
  simp [endQueued, detachRelease, h, State.handOn, State.handOnFirst, doorNotice, State.dueNotice]

theorem endQueued_gone (o : ReleaseEnd) {r : Release} (h : (s.door d).release = some r) :
    d ∉ ((endQueued d o s).rail (s.railOf d)).queue := by
  rw [endQueued_rail, h]; exact (leaveRail_gone s d).1

/-- A release offered to a rail that has no room or has a queue (R48, R49): it joins the queue at its place; at a full one an egress release
pushes out the newest non-egress one, or stands outside, and another ends RAIL_BUSY. -/
theorem offerRail_queues {r : Release} (h : (s.door d).release = some r)
    (hq : ¬ ((s.rail (s.railOf d)).queue = [] ∧ s.railHasRoom (s.railOf d) = true)) :
    let k := s.railOf d
    let q := (s.rail k).queue
    let t := offerRail d s
    let waits : Release := { r with wait := ⟨false, false, false, true⟩ }
    SameBut [.doors] s t
    ∧ (q.length < 8 → t.door d = { s.door d with release := some waits } ∧ (t.rail k).queue = joinQueue s.isEgress d q
        ∧ OtherDoors d s t)
    ∧ (8 ≤ q.length → r.kind ≠ .egress → t.door d = { s.door d with state := .secured, release := none }
        ∧ HandOn.released d waits .railBusy false ∈ t.work.handOns ∧ OtherDoors d s t)
    ∧ (8 ≤ q.length → r.kind = .egress → ∀ newest, (q.filter fun v => !s.isEgress v).getLast? = some newest →
        t.door d = { s.door d with release := some waits } ∧ d ∈ (t.rail k).queue
        ∧ t.door newest = { s.door newest with state := .secured, release := none }
        ∧ (∀ p, (s.door newest).release = some p → HandOn.released newest p .railBusy false ∈ t.work.handOns)
        ∧ ∀ v, v ≠ d → v ≠ newest → t.door v = s.door v)
    ∧ (8 ≤ q.length → r.kind = .egress → (∀ v ∈ q, s.isEgress v = true) → t.door d = { s.door d with release := some waits }
        ∧ (t.rail k).queue = q ∧ (t.rail k).outside = (s.rail k).outside ++ [d] ∧ OtherDoors d s t) := by
  simp only []
  have h1 : (setWait d { WaitSet.empty with rail := true } s).door d
      = { s.door d with release := some { r with wait := ⟨false, false, false, true⟩ } } := setWait_self s d _ h
  have f1 := setWait_frame s d { WaitSet.empty with rail := true }
  have o1 := setWait_others s d { WaitSet.empty with rail := true }
  have heg : s.isEgress d = (r.kind == .egress) := isEgress_of_release h
  unfold offerRail; simp only []
  rw [if_neg hq, heg]
  generalize setWait d { WaitSet.empty with rail := true } s = v at h1 f1 o1 ⊢
  refine ⟨?_, fun hl => ?_, fun hl hk => ?_, fun hl hk newest hn => ?_, fun hl hk hall => ?_⟩
  · split
    · exact f1.trans (setRail_frame _ _ _)
    · split
      · split
        · exact (f1.trans (setRail_frame _ _ _)).trans (endQueued_frame _ _ _)
        · exact f1.trans (setRail_frame _ _ _)
      · exact f1.trans (endQueued_frame _ _ _)
  · rw [if_pos (by simpa [Config.railQueueCap] using hl)]
    exact ⟨by rw [door_setRail, h1], by rw [rail_setRail], o1.trans (setRail_others _ _ _ _)⟩
  · rw [if_neg (by simpa [Config.railQueueCap] using hl), if_neg (by simpa using hk)]
    refine ⟨by rw [endQueued_self, h1], endQueued_handsOn _ _ _ (by rw [h1]), o1.trans (endQueued_others _ _ _)⟩
  · have hne : d ≠ newest := by
      rintro rfl
      have := (List.mem_filter.1 (List.mem_of_getLast? hn)).2
      rw [heg, hk] at this; simp at this
    rw [if_neg (by simpa [Config.railQueueCap] using hl), if_pos (by simpa using hk), hn]
    simp only []
    obtain ⟨u, hu⟩ : ∃ u, u = v.setRail (s.railOf d)
      { s.rail (s.railOf d) with queue := joinQueue s.isEgress d ((s.rail (s.railOf d)).queue.filter (· != newest)) } := ⟨_, rfl⟩
    rw [← hu]
    have ud (y : DoorId) : u.door y = v.door y := by rw [hu]; exact door_setRail _ _ _ _
    have hd : d ∈ (u.rail (s.railOf d)).queue := by rw [hu, rail_setRail]; exact mem_joinQueue.2 (.inl rfl)
    refine ⟨by rw [endQueued_others u newest _ d hne, ud, h1], ?_, ?_, fun p hp => ?_, fun y hy hyn => ?_⟩
    · rw [endQueued_rail]; split
      · exact leaveRail_keeps u newest hne hd
      · exact hd
    · rw [endQueued_self, ud, o1 newest (Ne.symm hne)]
    · exact endQueued_handsOn u newest _ (by rw [ud, o1 newest (Ne.symm hne), hp])
    · rw [endQueued_others u newest _ y hyn, ud, o1 y hy]
  · have hno : ((s.rail (s.railOf d)).queue.filter fun q => !s.isEgress q) = [] := by
      rw [List.filter_eq_nil_iff]; intro v hv; simp [hall v hv]
    rw [if_neg (by simpa [Config.railQueueCap] using hl), if_pos (by simpa using hk), hno]
    simp only [List.getLast?_nil]
    exact ⟨by rw [door_setRail, h1], by rw [rail_setRail], by rw [rail_setRail], o1.trans (setRail_others _ _ _ _)⟩

/-! ### Re-evaluation -/

/-- A door that is not QUEUED, or carries no release, is not re-evaluated. -/
theorem evaluateDoor_idle (h : (s.door d).state ≠ .queued ∨ (s.door d).release = none) : evaluateDoor d s = s := by
  unfold evaluateDoor; split
  · rename_i a b; rcases h with h | h
    · exact absurd a h
    · rw [b] at h; cases h
  · rfl

/-- The re-evaluation of a QUEUED release by its other reasons (R30): `v` is the state, with the other door told of a changed INTERLOCK. -/
theorem evaluateDoor_cases {r : Release} (h : (s.door d).state = .queued) (hr : (s.door d).release = some r) :
    ∃ v : State, v.doors = s.doors ∧ SameBut [] s v
      ∧ evaluateDoor d s = (if (otherReasons s d r.kind).other then
            setWait d (otherReasons s d r.kind) (if r.wait.rail then leaveRail d v else v)
          else if r.wait.rail then v else offerRail d (setWait d (otherReasons s d r.kind) v)) := by
  refine ⟨if (otherReasons s d r.kind).interlock = r.wait.interlock then s else s.handOnFirst (.reevaluate (zoneOf d)), ?_, ?_, ?_⟩
  · split <;> rfl
  · split
    · exact .refl _ _
    · exact handOnFirst_frame _ _
  · unfold evaluateDoor; rw [h, hr]

/-- When INTERLOCK holds (R31). -/
theorem interlockHolds_iff (k : ReleaseKind) :
    interlockHolds s d k = true ↔ ¬ (k = .egress ∧ s.inEvacuation (zoneOf d) = true)
      ∧ (((s.door (otherDoor d)).state ≠ .secured ∧ (s.door (otherDoor d)).state ≠ .queued)
        ∨ ((s.door (otherDoor d)).state = .queued ∧ ∃ p, (s.door (otherDoor d)).release = some p ∧ p.wait.interlock = false
            ∧ ¬ (p.kind = .egress ∧ s.inEvacuation (zoneOf d) = true))) := by
  unfold interlockHolds
  by_cases h : k = .egress ∧ s.inEvacuation (zoneOf d) = true
  · rw [if_pos h]; simp [h]
  · rw [if_neg h]
    generalize s.door (otherDoor d) = o
    obtain ⟨st, rel, _⟩ := o
    cases st <;> simp [h]
    cases rel <;> simp [Decidable.imp_iff_not_or]

theorem settleRuns_iff : settleRuns s d = true ↔ ∃ m, (s.door d).settleEnds = some m ∧ s.now < m := by
  unfold settleRuns; cases (s.door d).settleEnds <;> simp

/-! ### Rail room (R50) -/

theorem startHeads_stops (k : Rail) (n : Nat) (h : (s.rail k).queue = [] ∨ s.railHasRoom k = false) : startHeads k n s = s := by
  cases n with
  | zero => rfl
  | succ n =>
    unfold startHeads
    rcases h with h | h
    · rw [h]
    · cases (s.rail k).queue <;> simp [h]

theorem startHeads_starts {k : Rail} {n : Nat} {rest : List DoorId} (h : s.railHasRoom k = true) (q : (s.rail k).queue = d :: rest) :
    startHeads k (n + 1) s = startHeads k n (beginWithdrawal d s) := by
  simp [startHeads, q, h]

end Sys2Proof.Machine
end

