-- ==== Sys2Proof/Tests/Slice0.lean ====
section
/-! SUPPORT. Tests: terms the well-formedness check refuses, one small step per group of commands, and for each statement with hypotheses a
state and operands that meet them, clause by clause, with the boundary values of their ranges. -/
namespace Sys2Proof.Tests
set_option Elab.async false -- one proof at a time keeps the threads of a compile few
open Sys2Proof.Machine

/-! ### Small states -/

/-- The part with start-up behind it, every port READY. -/
def up : State := { State.reset with started := true }

/-- The same some time later. -/
def at_ (now : Nat) (s : State) : State := { s with now := now }

def withDoor (d : DoorId) (f : Door → Door) (s : State) : State := s.setDoor d (f (s.door d))
def withSupp (z : Zone) (f : SuppRec → SuppRec) (s : State) : State := s.setSuppRec z (f (s.suppRec z))
def withZone (z : Zone) (f : ZoneRec → ZoneRec) (s : State) : State := s.setZone z (f (s.zone z))
def withLine (n : LineId) (f : Line → Line) (s : State) : State := s.setLine n (f (s.line n))
def withSlot (l : LoopId) (a : SlotId) (f : Slot → Slot) (s : State) : State := s.setSlot l a (f (s.slot l a))
def withLoop (l : LoopId) (f : Loop → Loop) (s : State) : State := s.setLoop l (f (s.loop l))
def withPort (p : PortId) (f : Port → Port) (s : State) : State := s.setPort p (f (s.port p))

def withCfg (z : Zone) (f : ZoneCfg → ZoneCfg) (s : State) : State :=
  { s with store.zones := (put s.store.zones z { s.storedZone z with value := f (s.cfg z) }) }
/-- A door in a state with an attached release. -/
def carrying (d : DoorId) (st : DoorState) (r : Release) (s : State) : State :=
  withDoor d (fun x => { x with state := st, release := some r }) s
/-- A sweep of Z15 in progress, with the replies received. -/
def sweeping (outer inner : Option SweepReply) (s : State) : State :=
  { s with sweep.inProgress := some ⟨15, .scheduled, outer, inner, none⟩ }

/-- A door SECURED, with nothing that holds it. -/
def secured (d : DoorId) (s : State) : State := withDoor d (fun x => { x with state := .secured }) s

/-- A zone that takes requests (IN_SERVICE). -/
def served (z : Zone) (s : State) : State := withZone z (fun x => { x with inService := true }) s

/-- A zone's lockdown flag set. -/
def locked (z : Zone) (s : State) : State :=
  { s with store.control.value := { s.control with lockdown := (put s.control.lockdown z true) } }

/-- A zone in evacuation. -/
def evacuated (z : Zone) (s : State) : State := withSupp z (fun x => { x with state := .releasing }) s

/-- A zone known EMPTY. -/
def emptyZone (z : Zone) (s : State) : State :=
  withZone z (fun x => { x with headcountValid := true, reasons := ReasonSet.empty }) s

/-- A passage release. -/
def release (kind : ReleaseKind) : Release :=
  { kind := kind, origin := .reader, group := none, window := none, wait := WaitSet.empty, queuedAt := 0, opened := false,
    cut := false, lapsed := false }

/-- A roster entry of a badge, ADMITTED, with a lone-worker deadline. -/
def entry (n : EntryNo) (z : Zone) (b : Badge) : Entry :=
  { number := n, zone := z, badge := some b, role := .staff, location := .admitted, admittedAt := 0, escort := none,
    deadline := some 0, checkIns := 0, duress := false, unescorted := false, lone := false, group := none }

/-- An alarm record. -/
def alarm (kind : AlarmKind) (z : Zone) (present : Bool) : AlarmRec :=
  { kind := kind, zone := some z, subject := .none, present := present, acknowledged := false, firstRaised := 0,
    lastRaised := 0, raises := 1 }

/-- A reply of a station as its bytes: address, header, the rest and the CRC. -/
def stationBytes (body : List Byte) : List Byte := body ++ crc16Bytes body

/-- A frame of a port: length, code, payload and CRC. -/
def framed (code : Byte) (payload : List Byte) : List Byte :=
  let body := byte1 payload.length ++ [code] ++ payload
  body ++ crc16Bytes body

/-- A STATUS record: closed, thrown, travel 300, tallies 5 and 3, no tamper. -/
def statusBody : List Byte := [0, 0, 1, 44, 0, 5, 0, 3, 0]

/-- A presentation of badge 7 at the outer door of Z0. -/
def shown : Presentation := ⟨0, 7, .none, [], none, false⟩

/-- The state a command leaves. -/
def after (c : Instr) (s : State) : State :=
  match exec c s with
  | .next t => t
  | .fault _ | .refused _ => s

/-- The reply a port then holds: its status and payload. -/
def replyOf (p : PortId) (s : State) : Option (Status × List Byte) := (s.port p).reply.map fun r => (r.status, r.payload)

/-! ### Well-formedness (R63, R208) -/

/-- A CACHE_LOAD of 21 entries fits no payload. -/
theorem test_wf_cacheLoad_refused :
    Instr.wf (.cacheLoad .access (List.replicate 21 ⟨1, 0, 0, 0, 0⟩)) = false := by decide +kernel

theorem test_wf_cacheLoad_taken : Instr.wf (.cacheLoad .access (List.replicate 20 ⟨1, 0, 0, 0, 0⟩)) = true := by decide +kernel

/-- A WRITE_SCHEDULE of 50 windows fits no payload. -/
theorem test_wf_writeSchedule_refused :
    Instr.wf (.writeSchedule .access (List.replicate 50 ⟨1, 0, 1⟩)) = false := by decide +kernel

theorem test_wf_writeSchedule_taken : Instr.wf (.writeSchedule .access (List.replicate 49 ⟨1, 0, 1⟩)) = true := by
  decide +kernel

/-! ### Frames (R208) -/

/-- The check value of the CRC-16 of R208 over the digits 1 to 9. -/
theorem test_crc16 : crc16 [0x31, 0x32, 0x33, 0x34, 0x35, 0x36, 0x37, 0x38, 0x39] = 0x29B1#16 := by decide +kernel

/-- The check value of the CRC-32 of R208 over the digits 1 to 9. -/
theorem test_crc32 : crc32 [0x31, 0x32, 0x33, 0x34, 0x35, 0x36, 0x37, 0x38, 0x39] = 0xFC891918#32 := by decide +kernel

/-- NONE, the reset frame, READ_ZONE of Z3 (code 10h) and SWEEP_ALL (code 48h) as frames with their CRC. -/
theorem test_frames :
    judgeFrame 0 ([0, 0] ++ crc16Bytes [0, 0]) = .collect
    ∧ judgeFrame 1 ([0, 1] ++ crc16Bytes [0, 1]) = .resetFrame
    ∧ judgeFrame 0x10 ([1, 0x10, 3] ++ crc16Bytes [1, 0x10, 3]) = .request (.readZone 3)
    ∧ judgeFrame 0x48 ([0, 0x48] ++ crc16Bytes [0, 0x48]) = .request .sweepAll
    ∧ judgeFrame 0x10 [1, 0x10, 3, 0, 0] = .bad := by decide +kernel

/-- The reply frame of a BUSY: length 0, echo, status, CRC high byte first; a frame of one byte of payload has length 1. -/
theorem test_reply_frame :
    Reply.frame ⟨0x10, .ok, [7]⟩ = [1, 0x10, 0, 7] ++ crc16Bytes [1, 0x10, 0, 7]
    ∧ (Reply.frame ⟨0x10, .busy, []⟩).length = 5 := by decide +kernel

/-- The frame of an exchange: the address character alone carries the ninth bit (R211). -/
theorem test_exchange_frame :
    (Exchange.frame ⟨15, none⟩).map (·.addressMark) = [true, false, false, false]
    ∧ (Exchange.frame ⟨15, none⟩).map (·.byte) = [16, 0] ++ crc16Bytes [16, 0] := by decide +kernel

/-! ### One step -/

/-- The front command runs on the queue's rest. -/
theorem test_step_front :
    step { State.reset with pending := [.candidateChange 0 .active, .reset] }
      = exec (.candidateChange 0 .active) { State.reset with pending := [.reset] } := rfl

/-- A request before start-up has ended is answered BUSY (R197). -/
theorem test_busy_before_start :
    ((after (.readZone .guard 0) State.reset).port .guard).link = .answering (Reply.frame ⟨0x10, .busy, []⟩) false := by
  decide +kernel

/-- A suppression request on the guard port is NOT_PERMITTED (R185). -/
theorem test_not_permitted : replyOf .guard (after (.vent .guard 0) up) = some (.notPermitted, []) := by decide +kernel

/-- VENT of a NORMAL zone is WRONG_STATE (R135), and of a zone the part has not, BAD_ARGUMENT (R186). -/
theorem test_vent_refused :
    replyOf .suppression (after (.vent .suppression 15) up) = some (.wrongState, [])
    ∧ replyOf .suppression (after (.vent .suppression 16) up) = some (.badArgument, []) := by decide +kernel

/-- The second detector of a zone in NORMAL confirms it; a zone not known EMPTY is HELD (R122, R124). -/
theorem test_detect_confirms :
    ((after (.detect .suppression 5 2) (withSupp 5 (fun x => { x with detectors := [1], state := .alert }) up)).suppRec 5).state
      = .held := by decide +kernel

/-- The same in a zone known EMPTY counts down (R124). -/
theorem test_detect_counts_down :
    let s := after (.detect .suppression 5 2) (emptyZone 5 (withSupp 5 (fun x => { x with detectors := [1], state := .alert }) up))
    (s.suppRec 5).state = .preDischarge ∧ (s.suppRec 5).countdown = 30000 := by decide +kernel

/-- A detector seen already changes nothing; the reply says the state and the set's size (R121). -/
theorem test_detect_again :
    replyOf .suppression (after (.detect .suppression 5 1) (withSupp 5 (fun x => { x with detectors := [1], state := .alert }) up))
      = some (.ok, [1, 1]) := by decide +kernel

/-- LOCKDOWN begins a store write and holds the slot; STORE_COMMIT sets the flag and replies (R45, R202). -/
theorem test_lockdown :
    let s := after (.lockdown .guard (.zone 2)) up
    let t := after .storeCommit s
    (s.port .guard).slot = some (.lockdown (.zone 2)) ∧ s.lockdownFlag 2 = false
    ∧ t.lockdownFlag 2 = true ∧ t.lockdownFlag 3 = false ∧ (t.port .guard).slot = none ∧ t.store.write = none := by
  decide +kernel

/-- FETCH_NOTICE after a reset takes the RESYNC of cause RESET: no more in the queue, then the record (R193, R197, R210). -/
theorem test_fetch_notice :
    replyOf .access (after (.fetchNotice .access) up) = some (.ok, [0, 13, 0xFF, 0, 0, 0, 0, 0, 0]) := by decide +kernel

/-- The pull line's ACTIVE level is taken 20 ms after the change, not before (R177). -/
theorem test_line_filter :
    let s := after (.candidateChange 0 .active) (at_ 100 up)
    ((after (.lineLevelTaken 0) (at_ 119 s)).line 0).supervised = none
    ∧ ((after (.lineLevelTaken 0) (at_ 120 s)).line 0).supervised = some .active := by decide +kernel

/-- The last RECORD_LOAD ends start-up, and the loops run; a record with no good copy is defaulted (R205, R206, R163). -/
theorem test_start_up :
    let loadedZones : Vector (Stored ZoneCfg) 16 := State.reset.store.zones.map fun x => { x with loaded := true }
    let s : State := { State.reset with store.part.loaded := true, store.zones := loadedZones, store.control.first.crc := none }
    let t := after (.recordLoad .control) s
    t.started = true ∧ (t.loop 0).state = .running ∧ (t.slot 1 15).online = .offline ∧ t.ready .access = true
    ∧ t.store.control.defaulted = true := by decide +kernel

/-- A defaulted zone's service flag is written though it reads OUT_OF_SERVICE: the record's count rises by one, before its own load (where a
record with no good copy is still told as defaulted) and after it (R205). -/
theorem test_defaulted_zone_is_written :
    let blank : State := { State.reset with store.zones := State.reset.store.zones.map fun x => { x with first.crc := none, second.crc := none } }
    let bare : State := { blank with store.control.first.crc := none, store.control.second.crc := none }
    let held : State := { blank with store.control := { blank.store.control with loaded := true } }
    let count (s : State) := (controlInForce s).current.count
    let t := after (.recordLoad (.zone 15)) bare
    nth blank.control.service 15 = false
    ∧ count (after (.recordLoad (.zone 15)) blank) = count blank + 1 ∧ count (after (.recordLoad (.zone 15)) held) = count held + 1
    ∧ count t = count bare + 1 ∧ t.store.defaultedMark = false
    ∧ (after (.recordLoad .control) t).store.defaultedMark = true := by decide +kernel

/-- On an empty queue one millisecond passes (log entry 1). -/
theorem test_idle_tick : (match step State.reset with | .next t => t.now | _ => 0) = 1 := by decide +kernel

/-- A VERIFY_ZONE repeated in one second makes its anonymous entry anew: the generation rises each time (R12). -/
theorem test_verify_twice :
    let s := after (.verifyZone .guard 0 1 0) up
    let t := after (.verifyZone .guard 0 1 0) (withPort .guard (fun x => { x with reply := none }) s)
    s.pool = t.pool ∧ (s.zone 0).generation = 1 ∧ (t.zone 0).generation = 2 := by decide +kernel

/-- CONTACT open in WITHDRAWING takes the bolt as withdrawn, the travel as it was (R33). -/
theorem test_contact_in_withdrawing :
    let s := contactOpen 31 (carrying 31 .withdrawing (release .passage) up)
    (s.door 31).state = .opened ∧ (s.door 31).bolt = .withdrawn ∧ (s.door 31).travel = 0 := by decide +kernel

/-- The station of an UNVERIFIED door lost: contact and bolt UNKNOWN (R41). -/
theorem test_lost_unverified :
    let s := stationLost 31 (withDoor 31 (fun x => { x with contact := .opened, bolt := .thrown }) up)
    (s.door 31).contact = .unknown ∧ (s.door 31).bolt = .unknown ∧ (s.door 31).state = .unverified := by decide +kernel

/-- A door forced while QUEUED gives one DOOR_CHANGED, with the release's outcome (R51). -/
theorem test_forced_queued_gives_one_notice :
    (forceOpen 31 (carrying 31 .queued (release .passage) up)).work.due.filter (fun | .door k _ => k == 31 | _ => false)
      = [.door 31 (some .cancelled)] := by decide +kernel

/-- A HELD zone emptied by one report of a reply and UNCERTAIN by the next resumes between them: it is HELD again with the resume time, and its
halves of the force window are discarded (R126, R129, R144, R172). -/
theorem test_certainty_taken_at_each_change :
    let guest : Entry := { entry 0 0 7 with location := .vestibule }
    let s : State := { up with pool := [guest], supp.window := ⟨some 60000, some 0, none⟩ }
    let held := withSupp 0 (fun x => { x with state := .held, countdown := 1, holds := ⟨false, true, false, false, false⟩ }) (emptyZone 0 s)
    let leaving := withDoor 0 (fun x => { x with contact := .closed })
      (carrying 0 .throwing { release .egress with origin := .rex, opened := true } held)
    let t := takeReports 0 0 [some (.bolt false 300), some (.contact true)] leaving
    t.pool = [] ∧ (t.suppRec 0).state = .held ∧ (t.suppRec 0).holds = ⟨false, false, true, false, false⟩
    ∧ (t.suppRec 0).countdown = (up.cfg 0).resume * 1000 ∧ t.supp.window = ⟨some 60000, none, none⟩ := by decide +kernel

/-- The records a request ends are noticed in queue order, from the place of the first of them on (R107). -/
theorem test_endings_in_queue_order :
    let a := alarm .unescortedVisitor 5 false
    let b := alarm .unescortedVisitor 3 false
    endingsInQueueOrder [{ a with present := true }, { b with present := true }]
        [.zone 1, .alarmChanged b .ended, .zone 3, .alarmChanged a .ended, .alarmChanged a .acknowledged]
      = [.zone 1, .alarmChanged a .ended, .alarmChanged b .ended, .zone 3, .alarmChanged a .acknowledged] := by decide +kernel

/-- An ABORT line taken ACTIVE from a fault before start-up ends is active at once (R179). -/
theorem test_abort_from_fault :
    ((lineActive 1 true (withLine 1 (fun x => { x with supervised := some .active, armed := true }) State.reset)).line 1).qualified
      = true ∧ lineKind 1 = .abort := by decide +kernel

/-! ### Witnesses: a state and operands that meet each statement's hypotheses, clause by clause -/

theorem test_witness_IdleStepPassesOneMillisecond : State.reset.pending = [] := rfl

/-- The four cases of the copies, the two of the counts, a record of each kind with its copies good and bad, a defaulted zone with the control
record loaded and not, its flag OUT_OF_SERVICE and IN_SERVICE, and the last record. -/
theorem test_witness_RecordLoadTakesTheGoodCopy :
    let one := sealedCopy PartRec.bytes PartRec.default 1
    let two := sealedCopy PartRec.bytes PartRec.default 2
    let bad : Copy PartRec := ⟨PartRec.default, 0, none⟩
    let blank : State := { State.reset with
      store.zones := State.reset.store.zones.map fun x => { x with first.crc := none, second.crc := none } }
    let held : State := { blank with store.control := { blank.store.control with loaded := true, value.service := put blank.control.service 15 true } }
    let nearly : State := { State.reset with
      store.part.loaded := true, store.zones := State.reset.store.zones.map fun x => { x with loaded := true } }
    copyGood PartRec.bytes one = true ∧ copyGood PartRec.bytes two = true ∧ copyGood PartRec.bytes bad = false
    ∧ two.count = one.count + 1 ∧ one.count ≠ two.count + 1
    ∧ State.reset.started = false ∧ recordLoaded State.reset .part = false ∧ recordLoaded State.reset (.zone 15) = false
    ∧ recordLoaded State.reset .control = false ∧ recordLoaded blank (.zone 15) = false
    ∧ (Stored.load ZoneCfg.bytes ZoneCfg.default (State.reset.storedZone 15)).defaulted = false
    ∧ (Stored.load ZoneCfg.bytes ZoneCfg.default (blank.storedZone 15)).defaulted = true
    ∧ blank.started = false ∧ blank.store.control.loaded = false ∧ held.store.control.loaded = true ∧ held.started = false
    ∧ recordLoaded held (.zone 15) = false ∧ (Stored.load ZoneCfg.bytes ZoneCfg.default (held.storedZone 15)).defaulted = true
    ∧ nth (controlInForce blank).value.service 15 = false ∧ nth (controlInForce held).value.service 15 = true ∧ (14 : Zone) ≠ 15
    ∧ allLoaded (loadRecord .part State.reset) = false ∧ recordLoaded nearly .control = false
    ∧ allLoaded (loadRecord .control nearly) = true := by decide +kernel

/-- Each fault by itself: a length of 249, a byte too few and one too many, a wrong CRC, the codes beside each range of the part's, a payload
that fits no request of its code; and frames with none: codes 0 and 1, codes at the end of a range. -/
theorem test_frames_judged :
    judgeFrame 0x24 ([249, 0x24] ++ List.replicate 251 0) = .bad
    ∧ judgeFrame 0x10 ([1, 0x10] ++ crc16Bytes [1, 0x10]) = .bad
    ∧ judgeFrame 0x10 (framed 0x10 [3] ++ [0]) = .bad
    ∧ judgeFrame 0x10 [1, 0x10, 3, 0, 0] = .bad
    ∧ (∀ c ∈ ([2, 0x0F, 0x18, 0x1F, 0x28, 0x2F, 0x3B, 0x3F, 0x4D, 0xFF] : List Byte), judgeFrame c (framed c [3]) = .bad)
    ∧ judgeFrame 0 (framed 0 [3]) = .bad ∧ judgeFrame 1 (framed 1 [3]) = .bad ∧ judgeFrame 0x10 (framed 0x10 []) = .bad
    ∧ judgeFrame 0x10 (framed 0x10 [3, 3]) = .bad ∧ judgeFrame 0x22 (framed 0x22 [2]) = .bad
    ∧ judgeFrame 0 (framed 0 []) = .collect ∧ judgeFrame 1 (framed 1 []) = .resetFrame
    ∧ judgeFrame 0x17 (framed 0x17 []) = .request .fetchNotice ∧ judgeFrame 0x4C (framed 0x4C [1]) = .request (.enableForceChord 1) := by
  decide +kernel

/-- A frame of each kind, sound and of a request's spelling, at a READY port, a port before start-up, one with a reply and one with a request. -/
theorem test_witness_FrameIsJudged :
    judgeFrame 0x10 (framed 0x10 [3]) = .request (.readZone 3)
    ∧ Request.wf (.readZone 3) = true ∧ Request.code (.readZone 3) = 0x10 ∧ Request.payload (.readZone 3) = [3]
    ∧ judgeFrame 0x10 [1, 0x10, 3, 0, 0] = .bad ∧ judgeFrame 0 (framed 0 []) = .collect
    ∧ judgeFrame 1 (framed 1 []) = .resetFrame
    ∧ up.ready .access = true ∧ State.reset.ready .access = false ∧ up.started = true ∧ State.reset.started = false
    ∧ (up.port .access).reply = none ∧ (up.port .access).slot = none
    ∧ ((withPort .guard (fun x => { x with reply := some ⟨0x15, .ok, []⟩ }) up).port .guard).reply = some ⟨0x15, .ok, []⟩
    ∧ ((withPort .guard (fun x => { x with slot := some .sweepAll }) up).port .guard).slot ≠ none
    ∧ ((withPort .guard (fun x => { x with slot := some .sweepAll }) up).port .guard).reply = none
    ∧ ([0] : List Byte).length < 2 := by decide +kernel

theorem test_witness_TransactionsEndOrResetThePort :
    ((withPort .access (fun x => { x with link := .answering [] true }) up).port .access).link = .answering [] true
    ∧ (∀ x, (up.port .access).link ≠ .answering x true)
    ∧ up.supp.window.closesAt = none ∧ ({ up with supp.window := ⟨some 5, none, none⟩ } : State).supp.window.closesAt ≠ none
    ∧ PortId.guard ≠ .access :=
  ⟨by decide +kernel, (fun _ h => by cases h), by decide +kernel, by decide +kernel, by decide⟩

/-- A queue of 47, one of 48, an empty one, one with a notice, with the resync flag clear and set. -/
theorem test_witness_NoticesQueueAndAreFetched :
    let n : Notice := Notice.resyncReset
    let full (k : Nat) : Port := { Port.reset with notices := List.replicate k n }
    (full 47).notices.length < 48 ∧ 48 ≤ (full 48).notices.length ∧ up.ready .guard = true
    ∧ (up.port .guard).notices = [n] ∧ (up.port .guard).resync = false
    ∧ ((withPort .guard (fun x => { x with notices := [] }) up).port .guard).notices = []
    ∧ ((withPort .guard (fun x => { x with resync := true, drops := 3 }) up).port .guard).resync = true := by decide +kernel

theorem test_witness_RightsAndRangesAreKept :
    up.ready .guard = true ∧ permitted .guard (.vent 0) = false ∧ permitted .suppression (.vent 16) = true
    ∧ zoneArg 16 = none ∧ zoneArg 15 = some 15 ∧ doorArg 32 = none ∧ doorArg 31 = some 31 ∧ 23 < (24 : Byte).toNat
    ∧ 31 < (32 : Byte).toNat ∧ permitted .access (.readRoster 0 24) = true ∧ permitted .access (.readAlarms 32) = true
    ∧ permitted .access (.holdDoor 32) = true := by decide +kernel

/-- The two badges that name nobody, alone and as one of twenty entries. -/
theorem test_witness_BadBadgesAreRefused :
    up.ready .access = true ∧ up.ready .guard = true ∧ badgeOk 0 = false ∧ badgeOk 0xFFFFFFFF = false ∧ badgeOk 1 = true
    ∧ badgeOk 0xFFFFFFFE = true
    ∧ (List.replicate 19 (⟨1, 0, 0, 0, 1⟩ : CacheArgs) ++ [(⟨0, 0, 0, 0, 1⟩ : CacheArgs)]).length ≤ 20 := by decide +kernel

theorem test_witness_PortsTakeOrTurnAway :
    State.reset.ready .access = false ∧ (State.reset.port .access).slot ≠ some .readStatus
    ∧ up.ready .access = true ∧ heldForWrite up .access = false := by decide +kernel

/-- The first and last zone, door and position; a door in its rail's queue, outside it, and in neither. -/
theorem test_witness_ReadsAnswerTheState :
    let k := up.railOf 31
    let queued := up.setRail k ⟨[], [4, 31], [5]⟩
    let aside := up.setRail k ⟨[], [4], [31]⟩
    up.ready .guard = true ∧ zoneArg 0 = some 0 ∧ zoneArg 15 = some 15 ∧ doorArg 0 = some 0 ∧ doorArg 31 = some 31
    ∧ (0 : Byte).toNat ≤ 23 ∧ (23 : Byte).toNat ≤ 23 ∧ (31 : Byte).toNat ≤ 31
    ∧ (queued.rail (queued.railOf 31)).queue.findIdx? (· == 31) = some 1
    ∧ (aside.rail (aside.railOf 31)).outside.findIdx? (· == 31) = some 0
    ∧ (up.rail k).queue.findIdx? (· == 31) = none := by decide +kernel

/-- The entry record of 23 bytes (R210) in READ_ROSTER's reply, behind generation, certainty, count and first position (R25). -/
theorem test_read_roster :
    let e : Entry := { entry 95 15 7 with location := .inner, admittedAt := 258, deadline := some 3, checkIns := 2, duress := true, group := some 9 }
    (replyOf .guard (after (.readRoster .guard 15 0) { up with pool := [e] })).map (·.2)
      = some ([0, 0, 2, 1, 0] ++ [95, 15, 0, 2, 0, 0, 0, 7, 0, 0, 1, 2, 0, 0, 0, 0, 0, 0, 0, 3, 2, 9, 9]) := by decide +kernel

/-- Each ground for BAD_ARGUMENT at its boundary; grants of every role and a denial, with marks 0 and 1, lifetimes 0, 1 and 86400; a query of
the badge and none; a cache with a place and a full one. -/
theorem test_witness_VerdictLateOrDecided :
    let a : VerdictArgs := ⟨1, 7, 0, 0, 1, 1, 86400⟩
    let wrong (x : VerdictArgs) : Prop := x.badge = 0 ∨ x.badge = 0xFFFFFFFF#32 ∨ 3 < x.role.toNat ∨ 86400 < x.lifetime.toNat
      ∨ 1 < x.outcome.toNat ∨ 1 < x.afterHours.toNat
    let q : Query := ⟨1, 0, 7, .none, [], 0, false⟩
    let s : State := { up with passage.queries := [q] }
    let live (n : Nat) := (List.range n).map fun i => (⟨BitVec.ofNat 32 (i + 100), .staff, 1, false, 9⟩ : CacheEntry)
    let rest (n : Nat) := ({ up with passage.cache := live n } : State).passage.cache.filter fun x => up.uptime < x.expiresAt && x.badge != a.badge
    up.ready .access = true ∧ s.ready .access = true
    ∧ wrong { a with badge := 0 } ∧ wrong { a with badge := 0xFFFFFFFF#32 } ∧ wrong { a with role := 4 }
    ∧ wrong { a with lifetime := 86401 } ∧ wrong { a with outcome := 2 } ∧ wrong { a with afterHours := 2 }
    ∧ ¬ wrong a ∧ ¬ wrong { a with badge := 0xFFFFFFFE#32, role := 3, outcome := 1, afterHours := 0, lifetime := 0 }
    ∧ [Role.staff, .escort, .visitor, .contractor][a.role.toNat]? = some .staff
    ∧ [Role.staff, .escort, .visitor, .contractor][(3 : Byte).toNat]? = some .contractor
    ∧ a.outcome = 0 ∧ a.lifetime.toNat ≠ 0 ∧ (0 : Word).toNat = 0 ∧ (rest 63).length < 64 ∧ ¬ (rest 64).length < 64
    ∧ (s.passage.queries.find? fun x => x.id == a.queryId && x.badge == a.badge) = some q
    ∧ (up.passage.queries.find? fun x => x.id == a.queryId && x.badge == a.badge) = none := by decide +kernel

/-- A VERDICT with a role above 3 or a lifetime above 86,400 s is refused, one at the limits is not (R59). -/
theorem test_verdict_ranges :
    replyOf .access (after (.verdict .access ⟨1, 7, 0, 4, 0, 1, 1⟩) up) = some (.badArgument, [])
    ∧ replyOf .access (after (.verdict .access ⟨1, 7, 0, 3, 0, 1, 86401⟩) up) = some (.badArgument, [])
    ∧ (replyOf .access (after (.verdict .access ⟨1, 7, 0, 3, 0, 1, 86400⟩) up)).map (·.1) = some .late := by decide +kernel

/-- A release that can be joined in each of the three states, with the zone's entry group the lowest and the highest; none at a door SECURED,
OPEN, FAULT and UNVERIFIED, and the join flag set; a live cache entry, one expired and none. -/
theorem test_witness_GrantsAreDecided_at_the_door :
    let rides (st : DoorState) (k : Nat) := (carrying 0 st { release .passage with group := some k } up).setZonePassage 0
      { (up.zonePassage 0) with entryGroup := some k }
    let live : State := { at_ 5000 up with passage.cache := [⟨7, .staff, 1, true, 6⟩, ⟨9, .staff, 1, true, 5⟩] }
    let at0 (st : DoorState) := withDoor 0 (fun x => { x with state := st }) up
    shown.door = 0 ∧ isOuter shown.door = true ∧ zoneOf shown.door = 0
    ∧ (∀ st ∈ [DoorState.queued, .withdrawing, .unlocked], ∀ k ∈ [1, 255], ((rides st k).door 0).state = st
        ∧ ((rides st k).zonePassage 0).entryGroup = some k ∧ ((rides st k).door 0).release = some { release .passage with group := some k })
    ∧ (release .passage).kind = .passage ∧ (release .passage).origin = .reader ∧ (release .passage).opened = false
    ∧ (up.zonePassage 0).entryGroup = none ∧ ((secured 0 up).zonePassage 0).entryGroup = none
    ∧ ((secured 0 up).door 0).state = .secured ∧ ((at0 .opened).door 0).state = .opened
    ∧ ((at0 .opened).zonePassage 0).entryGroup = none
    ∧ ((at0 .fault).door 0).state = .fault ∧ ((at0 .fault).zonePassage 0).entryGroup = none ∧ (up.door 0).state = .unverified
    ∧ shown.joinFlag = false ∧ ({ shown with joinFlag := true } : Presentation).joinFlag = true
    ∧ (∀ e ∈ (up.passage.cache.filter fun e => up.uptime < e.expiresAt), e.badge ≠ shown.badge)
    ∧ ((live.passage.cache.filter fun e => live.uptime < e.expiresAt).find? fun e => e.badge == shown.badge)
        = some ⟨7, .staff, 1, true, 6⟩
    ∧ (∀ e ∈ (live.passage.cache.filter fun e => live.uptime < e.expiresAt), e.badge ≠ 9) := by decide +kernel

/-- The right absent and held, the badge inside, DAY_HOURS and AFTER_HOURS, a role and mark that may enter, the PIN wanted and not, from the
cache and with 3, 4, 8 and 9 digits, an escort absent and found; an empty roster and not, no first badge, the same and another; all at a SECURED
door, and so with a NEW group. -/
theorem test_witness_GrantsAreDecided :
    let on := secured 0 up
    let day : State := { on with hours.state := .dayHours }
    let inside : State := { on with pool := [entry 0 3 7] }
    let guide : Entry := { entry 1 0 8 with role := .escort, location := .inner }
    let led : State := { day with pool := [guide] }
    let free := withCfg 0 (fun x => { x with pinAfterHours := false }) on
    let digits (n : Nat) : Presentation := { shown with terminator := .enter, digits := List.replicate n 1 }
    let first (b : Badge) := (withZone 0 (fun x => { x with pairing := some ⟨b, 0, 30000⟩ }) free).setZonePassage 0
      { (up.zonePassage 0) with held := some ⟨.staff, false⟩ }
    (on.door 0).state = .secured ∧ (on.zonePassage 0).entryGroup = none
    ∧ (0 : Half).getLsbD (zoneOf shown.door).val = false ∧ (1 : Half).getLsbD (zoneOf shown.door).val = true
    ∧ ¬ (∀ e ∈ inside.pool, e.badge ≠ some shown.badge) ∧ (∀ e ∈ on.pool, e.badge ≠ some shown.badge) ∧ on.hours.state = .afterHours
    ∧ day.hours.state = .dayHours ∧ (∀ e ∈ day.pool, e.badge ≠ some shown.badge) ∧ Role.staff ≠ .contractor
    ∧ (on.cfg 0).pinAfterHours = true ∧ (free.cfg 0).pinAfterHours = false ∧ free.hours.state = .afterHours
    ∧ (∀ e ∈ free.pool, e.badge ≠ some shown.badge) ∧ Source.verdict ≠ .cache ∧ (digits 3).carriesPin = false
    ∧ (digits 4).carriesPin = true ∧ (digits 8).carriesPin = true ∧ (digits 9).carriesPin = false
    ∧ ((day.roster 0).find? fun e => e.role == .escort && e.location != .admitted) = none
    ∧ ((led.roster 0).find? fun e => e.role == .escort && e.location != .admitted) = some guide ∧ guide.badge = some 8
    ∧ (∀ e ∈ led.pool, e.badge ≠ some shown.badge)
    ∧ free.roster 0 = [] ∧ led.roster 0 = [guide] ∧ (free.zone 0).pairing = none
    ∧ ((first 7).zone 0).pairing = some ⟨shown.badge, 0, 30000⟩ ∧ ((first 8).zone 0).pairing = some ⟨8, 0, 30000⟩
    ∧ ((first 8).zonePassage 0).held = some ⟨.staff, false⟩ ∧ (8 : Badge) ≠ shown.badge ∧ (first 8).roster 0 = []
    ∧ (first 8).hours.state = .afterHours ∧ ((first 8).door 0).state = .secured := by decide +kernel

/-- The lowest free slot of an empty pool and of nearly full ones; the last group 0 and 255 with a group free; a zone in service and not; a
member inside, two members of one badge, and neither; the cap met and passed, the pool full; the outer door SECURED in a zone that takes
requests, and one that is not, and a zone egress only; the three states of a door that can be joined, with and without its window, and one that
cannot. -/
theorem test_witness_AdmissionMakesEntriesAndRelease :
    let pool (n : Nat) := (allEntryNos.take n).map fun n => entry n 0 7
    let last (n : Nat) : State := { up with passage.lastGroup := n }
    let m (b : Badge) : Member := ⟨b, .staff, none, false⟩
    let capped (n : Nat) := withCfg 0 (fun x => { x with cap := n }) (served 0 { up with pool := [entry 0 0 8, entry 1 0 9] })
    let full : State := { served 0 up with pool := allEntryNos.map fun n => entry n 3 9 }
    let joins (st : DoorState) := carrying 0 st { release .passage with group := some 9, window := some 500 } (served 0 up)
    lowestFree up.pool = some 0 ∧ lowestFree (pool 95) = some 95 ∧ lowestFree (pool 94) = some 94
    ∧ lowestFree (pool 94 ++ [entry 94 0 8]) = some 95
    ∧ ({ up with hours.state := .dayHours } : State).hours.state = .dayHours
    ∧ (last 0).passage.lastGroup ≤ 255 ∧ (last 255).passage.lastGroup ≤ 255 ∧ (last 0).groupInUse 1 = false
    ∧ (last 255).groupInUse 255 = false ∧ newGroup (last 0) = 1 ∧ newGroup (last 254) = 255 ∧ newGroup (last 255) = 1
    ∧ isOuter shown.door = true ∧ zoneOf shown.door = 0
    ∧ (up.zone 0).inService = false ∧ ((served 0 up).zone 0).inService = true
    ∧ (∃ e ∈ (capped 6).pool, e.badge = some (m 8).badge) ∧ ¬ ([m 7, m 7].map (·.badge)).Nodup
    ∧ (∀ x ∈ [m 7, m 6], ∀ e ∈ (capped 4).pool, e.badge ≠ some x.badge) ∧ ([m 7, m 6].map (·.badge)).Nodup
    ∧ ((capped 4).zone 0).inService = true
    ∧ ((capped 4).cfg 0).cap = ((capped 4).roster 0).length + [m 7, m 6].length ∧ [m 7, m 6].length ≤ (capped 4).freeSlots
    ∧ ((capped 3).cfg 0).cap < ((capped 3).roster 0).length + [m 7, m 6].length
    ∧ full.freeSlots < [m 7].length ∧ (full.zone 0).inService = true ∧ (∀ e ∈ full.pool, e.badge ≠ some (m 7).badge)
    ∧ ((secured 0 (served 0 up)).door 0).state = .secured ∧ (secured 0 (served 0 up)).egressOnly 0 = false
    ∧ ((served 0 up).door 0).state ≠ .secured
    ∧ (secured 0 (locked 0 (served 0 up))).egressOnly 0 = true ∧ ((secured 0 (locked 0 (served 0 up))).zone 0).inService = true
    ∧ ((joins .queued).door 0).state = .queued ∧ ((joins .withdrawing).door 0).state = .withdrawing
    ∧ ((joins .unlocked).door 0).state = .unlocked ∧ ((joins .throwing).door 0).state = .throwing
    ∧ ((joins .unlocked).zone 0).inService = true ∧ [m 7].length ≤ (joins .unlocked).freeSlots
    ∧ ((joins .unlocked).roster 0).length + [m 7].length ≤ ((joins .unlocked).cfg 0).cap
    ∧ (∀ e ∈ (joins .unlocked).pool, e.badge ≠ some (m 7).badge) := by decide +kernel

/-- An entry out of each range by itself and at the ranges' ends; lists of good entries, with one that is bad, of one badge twice, and empty; one
and several of a full cache; a badge that a purge names. -/
theorem test_witness_CacheLoadAndPurge :
    let a : CacheArgs := ⟨7, 0, 1, 0, 86400⟩
    let b : CacheArgs := ⟨0xFFFFFFFE#32, 3, 1, 1, 1⟩
    let bad (x : CacheArgs) : Prop := x.badge = 0 ∨ x.badge = 0xFFFFFFFF#32 ∨ 3 < x.role.toNat ∨ 1 < x.afterHours.toNat
      ∨ x.lifetime.toNat = 0 ∨ 86400 < x.lifetime.toNat
    up.ready .access = true ∧ cacheArg up a = some ⟨7, .staff, 1, false, 86400⟩
    ∧ cacheArg up b = some ⟨0xFFFFFFFE#32, .contractor, 1, true, 1⟩ ∧ ¬ bad a ∧ ¬ bad b
    ∧ (∀ x ∈ [{ a with badge := 0 }, { a with badge := 0xFFFFFFFF#32 }, { a with role := 4 }, { a with afterHours := 2 },
        { a with lifetime := 0 }, { a with lifetime := 86401 }], bad x ∧ cacheArg up x = none)
    ∧ [a, b] ≠ [] ∧ [a, b].length ≤ 20 ∧ ([a, b].map (·.badge)).Nodup ∧ (∀ x ∈ [a, b], ¬ bad x)
    ∧ (∃ x ∈ [a, { b with role := 4 }], bad x) ∧ ¬ ([a, a].map (·.badge)).Nodup ∧ badgeOk 7 = true := by decide +kernel

/-- CACHE_PURGE answers with the live entries removed: one of a badge, none of another, both (R63). -/
theorem test_purge_counts :
    let s : State := { at_ 5000 up with passage.cache := [⟨7, .staff, 1, false, 6⟩, ⟨8, .staff, 1, false, 9⟩, ⟨9, .staff, 1, false, 5⟩] }
    replyOf .access (after (.cachePurge .access (.badge 7)) s) = some (.ok, [1])
    ∧ replyOf .access (after (.cachePurge .access (.badge 9)) s) = some (.ok, [0])
    ∧ replyOf .access (after (.cachePurge .access .all) s) = some (.ok, [2])
    ∧ replyOf .access (after (.cacheLoad .access [⟨3, 0, 1, 0, 1⟩, ⟨3, 0, 1, 0, 1⟩]) s) = some (.badArgument, []) := by decide +kernel

theorem test_witness_SetClockSetsTheClock :
    up.ready .access = true ∧ (604799 : Word).toNat ≤ 604799 ∧ 604799 < (604800 : Word).toNat := by decide +kernel

/-- A door not SECURED; one in a zone OUT_OF_SERVICE; SECURED with room on its rail, with settle time running, with no room, and with a full
rail queue. -/
theorem test_witness_HoldDoorAttachesARelease :
    let a := at_ 9000 (withZone 0 (fun x => { x with inService := true }) (secured 0 (secured 1 up)))
    let settling := withDoor 0 (fun x => { x with settleEnds := some 9500 }) a
    let busy := a.setRail .a ⟨[8000, 8000, 8000, 8000], [], []⟩
    let full := a.setRail .a ⟨[], List.replicate 8 4, []⟩
    up.ready .access = true ∧ doorArg 0 = some 0 ∧ (up.door 0).state ≠ .secured ∧ up.egressOnly (zoneOf 0) = true
    ∧ (a.door 0).state = .secured ∧ a.egressOnly (zoneOf 0) = false ∧ (otherReasons a 0 .hold).other = false ∧ (a.rail (a.railOf 0)).queue = []
    ∧ a.railHasRoom (a.railOf 0) = true ∧ (otherReasons settling 0 .hold).other = true ∧ busy.railHasRoom (busy.railOf 0) = false
    ∧ (otherReasons busy 0 .hold).other = false ∧ (busy.rail (busy.railOf 0)).queue.length < 8
    ∧ 8 ≤ (full.rail (full.railOf 0)).queue.length ∧ (otherReasons full 0 .hold).other = false := by decide +kernel

theorem test_witness_SecureDoorCutsShort :
    let held (st : DoorState) (k : ReleaseKind) := withDoor 31 (fun x => { x with state := st, release := some (release k) }) up
    up.ready .access = true ∧ doorArg 31 = some 31 ∧ (up.door 31).release = none
    ∧ ((held .unlocked .egress).door 31).release = some (release .egress)
    ∧ ((held .queued .passage).door 31).state = .queued ∧ ((held .withdrawing .hold).door 31).state = .withdrawing
    ∧ ((held .unlocked .hold).door 31).state = .unlocked ∧ ((held .opened .hold).door 31).state = .opened
    ∧ ((held .queued .hold).door 31).release = some (release .hold) ∧ ((held .throwing .passage).door 31).release = some (release .passage) ∧ (release .hold).kind ≠ .egress := by
  decide +kernel

/-- Sets of 7 and 8 detectors, a detector in and outside them, the only detector of a zone in ALERT. -/
theorem test_witness_DetectionSetFollowsRequests :
    let seven : List Byte := [1, 2, 3, 4, 5, 6, 7]
    let z7 := withSupp 15 (fun x => { x with detectors := seven }) up
    let z8 := withSupp 15 (fun x => { x with detectors := 8 :: seven }) up
    up.ready .suppression = true ∧ zoneArg 15 = some 15 ∧ (9 : Byte) ∉ (z7.suppRec 15).detectors
    ∧ (z7.suppRec 15).detectors.length < 8 ∧ (9 : Byte) ∉ (z8.suppRec 15).detectors ∧ 8 ≤ (z8.suppRec 15).detectors.length
    ∧ (7 : Byte) ∈ (z7.suppRec 15).detectors ∧ (up.cfg 15).coincidence = 2 := by decide +kernel

/-- ISOLATED, and PANEL_HOLD absent and present; a claim that changes the certainty and one that does not; PREDISCHARGE, HELD and another state
with reasons and with none; an abort that is new on a zone a half names, and one that was present. -/
theorem test_witness_HoldReasonsAreWritten :
    let isolated := withSupp 0 (fun x => { x with state := .isolated }) up
    let held := withSupp 0 (fun x => { x with holds := { x.holds with panelHold := true } }) up
    let known := emptyZone 15 up
    let at_ (st : SuppState) := withSupp 15 (fun x => { x with state := st }) up
    let named : State := { at_ .held with supp.window := ⟨some 60000, some 15, none⟩ }
    let some_ : HoldSet := ⟨true, false, false, false, false⟩
    let none_ : HoldSet := ⟨false, false, false, false, false⟩
    up.ready .suppression = true ∧ zoneArg 0 = some 0 ∧ (isolated.suppRec 0).state = .isolated
    ∧ (up.suppRec 0).state ≠ .isolated ∧ (up.suppRec 0).holds.panelHold = false ∧ (held.suppRec 0).state ≠ .isolated
    ∧ (held.suppRec 0).holds.panelHold = true
    ∧ (endClaim false 15 known (addReasonCore 15 .countMismatch known)).certainty 15 ≠ known.certainty 15
    ∧ ((at_ .preDischarge).suppRec 15).state = .preDischarge ∧ ((at_ .held).suppRec 15).state = .held
    ∧ some_.any = true ∧ none_.any = false
    ∧ (up.suppRec 15).state ≠ .preDischarge ∧ (up.suppRec 15).state ≠ .held
    ∧ some_.abort = true ∧ (named.suppRec 15).holds.abort = false ∧ named.halfNames 15 = true
    ∧ (at_ .held).halfNames 15 = false
    ∧ ((changeHolds 15 some_ (at_ .preDischarge)).suppRec 15).state ≠ ((at_ .preDischarge).suppRec 15).state
    ∧ ((changeHolds 15 some_ (at_ .preDischarge)).output 15).pattern ≠ ((at_ .preDischarge).output 15).pattern
    ∧ ((changeHolds 15 none_ (at_ .held)).suppRec 15).state ≠ ((at_ .held).suppRec 15).state := by decide +kernel

/-- NORMAL; PREDISCHARGE and HELD, with a half that names the zone and with none, SOAK complete and not, RELEASE_FAULT and VENT, with both
doors moving and at rest. -/
theorem test_witness_CancelVentAndRestore :
    let at0 (st : SuppState) := withSupp 0 (fun x => { x with state := st, soakComplete := true }) up
    let early := withSupp 0 (fun x => { x with state := .soak, soakComplete := false }) up
    let move (s : State) := withDoor 0 (fun x => { x with state := .throwing }) (withDoor 1 (fun x => { x with state := .withdrawing }) s)
    up.ready .suppression = true ∧ zoneArg 0 = some 0 ∧ (up.suppRec 0).state = .normal
    ∧ ((at0 .held).suppRec 0).state = .held ∧ (at0 .held).bothMoving 0 = false ∧ (move (at0 .held)).bothMoving 0 = true
    ∧ ((at0 .preDischarge).suppRec 0).state = .preDischarge ∧ (at0 .held).halfNames 0 = false
    ∧ ({ at0 .held with supp.window := ⟨some 60000, some 0, none⟩ } : State).halfNames 0 = true
    ∧ ((at0 .soak).suppRec 0).state = .soak ∧ ((at0 .soak).suppRec 0).soakComplete = true ∧ (at0 .soak).bothMoving 0 = false
    ∧ (move (at0 .soak)).bothMoving 0 = true ∧ ((at0 .releaseFault).suppRec 0).state = .releaseFault
    ∧ (early.suppRec 0).state = .soak ∧ (early.suppRec 0).soakComplete = false
    ∧ (up.suppRec 0).state ≠ .releaseFault ∧ (up.suppRec 0).state ≠ .soak ∧ ((at0 .vent).suppRec 0).state = .vent
    ∧ doorAtRest (at0 .vent) (outerDoor 0) = true ∧ doorAtRest (at0 .vent) (innerDoor 0) = true
    ∧ doorAtRest (move (at0 .vent)) (outerDoor 0) = false := by decide +kernel

/-- The window CLOSED and open, each ground for WRONG_STATE by itself, and the three cases of the halves of a zone that is HELD. -/
theorem test_witness_ForceNeedsBothHalves :
    let held := withSupp 12 (fun x => { x with state := .held, holds := ⟨false, false, false, false, false⟩ }) up
    let openW (a b : Option Zone) : State := { held with supp.window := ⟨some 60000, a, b⟩ }
    let aborted := withSupp 12 (fun x => { x with holds := { x.holds with abort := true } }) (openW none none)
    let panel := withSupp 12 (fun x => { x with holds := { x.holds with panelHold := true } }) (openW none none)
    zoneArg 12 = some 12 ∧ up.supp.window.closesAt = none ∧ up.ready .suppression = true ∧ up.ready .guard = true
    ∧ (openW none none).supp.window.closesAt ≠ none ∧ ((openW none none).suppRec 12).state = .held
    ∧ ((openW none none).suppRec 12).holds.abort = false ∧ ((openW none none).suppRec 12).holds.panelHold = false
    ∧ (up.suppRec 12).state ≠ .held ∧ (aborted.suppRec 12).holds.abort = true ∧ (panel.suppRec 12).holds.panelHold = true
    ∧ (openW (some 11) none).supp.window.suppressionHalf = some 11 ∧ (11 : Zone) ≠ 12
    ∧ (openW none (some 12)).supp.window.guardHalf = some 12 ∧ (openW (some 12) none).supp.window.suppressionHalf = some 12 := by
  decide +kernel

/-- A key in the queue; one that is not, with 31 records; with 32, the first of two done and as old; with 32 and none done, the last less
urgent and as urgent. -/
theorem test_witness_ReRaiseKeepsPlace :
    let q (n : Nat) : State := { up with alarms.queue := List.replicate n (alarm .panic 3 true) }
    let old : AlarmRec := { alarm .tamper 4 false with acknowledged := true }
    let aged : State := { up with alarms.queue := List.replicate 30 (alarm .panic 3 true) ++ [old, { old with zone := some 5 }] }
    let done (x : AlarmRec) : Bool := !x.present && x.acknowledged
    let find (s : State) := s.alarms.queue.find? fun x => x.hasKey .duress (some 9) (.badge 7)
    let ended : State := { up with alarms.queue := [alarm .panic 3 false] }
    (ended.alarms.queue.find? fun x => x.hasKey .panic (some 3) .none) = some (alarm .panic 3 false)
    ∧ (ended.alarms.queue.filter fun x => x.hasKey .panic (some 3) .none) = [alarm .panic 3 false]
    ∧ find (q 31) = none ∧ (q 31).alarms.queue.length < 32 ∧ find (q 32) = none ∧ 32 ≤ (q 32).alarms.queue.length
    ∧ find aged = none ∧ 32 ≤ aged.alarms.queue.length ∧ done old = true ∧ done { old with zone := some 5 } = true
    ∧ (∀ x ∈ List.replicate 30 (alarm .panic 3 true), done x = false) ∧ (∀ x ∈ (q 32).alarms.queue, done x = false)
    ∧ (q 32).alarms.queue.getLast? = some (alarm .panic 3 true) ∧ AlarmKind.panic.priority ≤ AlarmKind.duress.priority
    ∧ AlarmKind.panic.priority < AlarmKind.tamper.priority := by decide +kernel

/-- The first of the records done and as old gives its place; PANIC of Z9 displaces the last of a queue of TAMPER records; TAMPER joins no queue
of PANIC records (R104 to R106). -/
theorem test_full_queue :
    let q (k : AlarmKind) : State := { up with alarms.queue := List.replicate 32 (alarm k 3 true) }
    let old : AlarmRec := { alarm .tamper 4 false with acknowledged := true }
    let aged : State := { up with alarms.queue := List.replicate 30 (alarm .panic 3 true) ++ [old, { old with zone := some 5 }] }
    let t := raiseAlarm .duress (some 9) (.badge 7) aged
    t.alarms.queue.length = 32 ∧ t.alarms.queue.getLast? = some { old with zone := some 5 } ∧ t.alarmPresent .duress (some 9) (.badge 7) = true
    ∧ (raiseAlarm .panic (some 9) .none (q .tamper)).alarms.queue.head?.map (·.zone) = some (some 9)
    ∧ (raiseAlarm .tamper (some 9) .none (q .panic)).alarms.overflowCount = 1
    ∧ (raiseAlarm .tamper (some 9) .none (q .panic)).alarms.queue = (q .panic).alarms.queue := by decide +kernel

theorem test_witness_EndingEndsPresentRecord :
    up.alarmPresent .panic (some 3) .none = false
    ∧ ({ up with alarms.queue := [alarm .panic 3 true] } : State).alarmPresent .panic (some 3) .none = true
    ∧ AlarmKind.panic ≠ .duress ∧ (some 3 : Option Zone) ≠ some 4 ∧ Subject.none ≠ .badge 7 := by decide +kernel

/-- ACK_ALARM ALL and CLEAR_ALARM ALL answer with the records they changed and removed; a seen count of 0 is refused (R112, R113). -/
theorem test_alarms_all :
    let s : State := { up with alarms.queue := [alarm .panic 3 true, { alarm .duress 4 true with acknowledged := true }, alarm .tamper 5 false] }
    let said (c : Instr) := replyOf .guard (after c s)
    said (.ackAlarm .guard .all) = some (.ok, [2]) ∧ said (.clearAlarm .guard .all) = some (.ok, [1])
    ∧ said (.ackAlarm .guard (.key ⟨0, 3, .none⟩ (some 0))) = some (.badArgument, []) := by decide +kernel

/-- A key that is in the queue and one that is not, a seen count that is the raises and one that is not, PRESENT and ENDED. -/
theorem test_witness_AckAndClearAlarm :
    let s (b : Bool) : State := { up with alarms.queue := [alarm .panic 3 b] }
    up.ready .guard = true ∧ findAlarm ⟨0, 3, .none⟩ (s true) = some (alarm .panic 3 true)
    ∧ findAlarm ⟨0, 3, .none⟩ (s false) = some (alarm .panic 3 false) ∧ findAlarm ⟨0, 4, .none⟩ (s true) = none
    ∧ findAlarm ⟨16, 3, .none⟩ (s true) = none
    ∧ (1 : Byte).toNat ≠ 0 ∧ (1 : Byte).toNat = (alarm .panic 3 true).raises ∧ (2 : Byte).toNat ≠ (alarm .panic 3 true).raises := by
  decide +kernel

theorem test_witness_ResolveZoneEndsDistress : up.ready .guard = true ∧ zoneArg 15 = some 15 := by decide +kernel

/-- A door at rest in each of the two states and one that is not; a count one below the badged entries of its place and as many; a sum at the cap of
12 and above it; as many entries to make as slots free and freed, and one more; a claim that makes entries, one that removes some, one that does neither. -/
theorem test_witness_VerifyZoneReplacesCounts :
    let rests (s : State) (d : DoorId) : Prop := (s.door d).state = .secured ∨ (s.door d).state = .unverified
    let inside : State := { up with pool := [{ entry 0 0 7 with location := .inner }] }
    let coming : State := { up with pool := [entry 0 0 7] }
    let badged (s : State) (l : Location) : Nat := (s.pool.filter fun e => e.zone == 0 && e.badge.isSome && e.location == l).length
    let leaves (e : Entry) : Bool := e.zone == 0 && (e.location == .admitted || e.badge.isNone)
    let nearly : State := { up with pool := entry 0 0 7 :: (allEntryNos.drop 1).map fun n => entry n 3 9 }
    up.ready .guard = true ∧ zoneArg 0 = some 0 ∧ rests up (outerDoor 0) ∧ rests up (innerDoor 0)
    ∧ rests (secured 0 up) (outerDoor 0) ∧ ¬ rests (withDoor 1 (fun x => { x with state := .queued }) up) (innerDoor 0)
    ∧ badged inside .inner = 1 ∧ badged inside .vestibule = 0 ∧ ¬ badged inside .inner ≤ (0 : Byte).toNat
    ∧ badged inside .inner ≤ (1 : Byte).toNat
    ∧ (up.cfg 0).cap = 12 ∧ (12 : Byte).toNat + (0 : Byte).toNat ≤ (up.cfg 0).cap
    ∧ ¬ (12 : Byte).toNat + (1 : Byte).toNat ≤ (up.cfg 0).cap
    ∧ (nearly.pool.filter leaves).length + (96 - nearly.pool.length) = 1 ∧ rests nearly (outerDoor 0) ∧ rests nearly (innerDoor 0)
    ∧ coming.pool.any leaves = true ∧ up.pool.any leaves = false ∧ inside.pool.any leaves = false
    ∧ (up.pool.map (·.number)).Nodup ∧ (nearly.pool.map (·.number)).Nodup := by decide +kernel

/-- The three tests of VERIFY_ZONE in their order (R22). -/
theorem test_verify_tests :
    let said (i v : Byte) (s : State) := (replyOf .guard (after (.verifyZone .guard 0 i v) s)).map (·.1)
    let inside : State := { up with pool := [{ entry 0 0 7 with location := .inner }] }
    let nearly : State := { up with pool := entry 0 0 7 :: (allEntryNos.drop 1).map fun n => entry n 3 9 }
    said 0 13 (withDoor 1 (fun x => { x with state := .queued }) inside) = some .wrongState
    ∧ said 0 13 inside = some .rosterConflict ∧ said 1 12 inside = some .rosterFull ∧ said 1 11 inside = some .ok
    ∧ said 2 0 nearly = some .rosterFull ∧ said 1 0 nearly = some .ok := by decide +kernel

theorem test_witness_RemoveOccupantRemovesEntry :
    let s : State := { up with pool := [entry 95 15 7] }
    up.ready .guard = true ∧ badgeOk 0 = false ∧ badgeOk 0xFFFFFFFF = false ∧ badgeOk 7 = true ∧ up.entryOfBadge 7 = none
    ∧ s.ready .guard = true ∧ s.entryOfBadge 7 = some (entry 95 15 7) := by decide +kernel

/-- R152 of a zone: its doors, its suppression state and its stations. -/
def canSweep (z : Zone) (s : State) : Bool :=
  let online (d : DoorId) : Bool := (s.slot (loopOf (zoneOf d)) (slotOf d)).online == .online
  (s.door (outerDoor z)).state == .secured && (s.door (innerDoor z)).state == .secured
    && ((s.suppRec z).state == .normal || (s.suppRec z).state == .alert || (s.suppRec z).state == .isolated)
    && online (outerDoor z) && online (innerDoor z)

/-- No zone listed; one that fails each of the conditions of a sweep by itself; zones that meet them in NORMAL, ALERT and ISOLATED, one and two
of them; an excluded zone. -/
theorem test_witness_SweepAllListsZones :
    let listed (s : State) : List Zone := allZones.filter fun z => (s.zone z).inService && !(nth s.control.excluded z)
    let fit (s : State) (z : Zone) : Bool := canSweep z s
    let ready (z : Zone) (s : State) := served z (secured (outerDoor z) (secured (innerDoor z)
      (withSlot (loopOf z) (slotOf (outerDoor z)) (fun x => { x with online := .online })
        (withSlot (loopOf z) (slotOf (innerDoor z)) (fun x => { x with online := .online }) s))))
    let s := ready 15 up
    let outside : State := { s with store.control.value := { s.control with excluded := put s.control.excluded 15 true } }
    up.ready .guard = true ∧ up.sweep.inProgress = none ∧ up.sweep.allList = none ∧ listed up = []
    ∧ listed s = [15] ∧ fit s 15 = true ∧ listed (ready 0 s) = [0, 15] ∧ (∀ z ∈ listed (ready 0 s), fit (ready 0 s) z = true)
    ∧ (∀ z ∈ listed s, fit s z = true)
    ∧ (∃ z ∈ listed (served 15 up), fit (served 15 up) z = false)
    ∧ fit (withDoor 30 (fun x => { x with state := .queued }) s) 15 = false ∧ fit (withDoor 31 (fun x => { x with state := .queued }) s) 15 = false
    ∧ fit (withSlot 1 14 (fun x => { x with online := .offline }) s) 15 = false
    ∧ fit (withSlot 1 15 (fun x => { x with online := .offline }) s) 15 = false
    ∧ fit (withSupp 15 (fun x => { x with state := .preDischarge }) s) 15 = false
    ∧ fit (withSupp 15 (fun x => { x with state := .alert }) s) 15 = true ∧ fit (withSupp 15 (fun x => { x with state := .isolated }) s) 15 = true
    ∧ listed outside = [] ∧ ({ up with sweep.allList := some [15] } : State).sweep.allList ≠ none := by decide +kernel

/-- A request's own tests pass. -/
def passes (r : Request) : Bool := writeTest r up == none

/-- A request's own tests answer BAD_ARGUMENT. -/
def turnedAway (r : Request) : Bool := writeTest r up == some .badArgument

/-- The ends of a range pass and one step beyond each end does not. -/
def within {α : Type} (f : α → Request) (ends beyond : List α) : Bool := ends.all (passes ∘ f) && beyond.all (turnedAway ∘ f)

def noPart : PartFields := ⟨none, none, none, none, none⟩
def noZone : ZoneFields := ⟨none, none, none, none, none, none, none, none⟩
def noSupp : SuppressionFields := ⟨none, none, none, none, none⟩

/-- Every range of the configuration requests at both of its ends and one step beyond each (R84, R146, R199, R200). -/
theorem test_schedule_ranges :
    within (fun (w : WindowArgs) => .writeSchedule [w]) [⟨127, 0, 1⟩, ⟨1, 1439, 1440⟩]
        [⟨0, 0, 1⟩, ⟨128, 0, 1⟩, ⟨1, 1440, 1441⟩, ⟨1, 0, 1441⟩, ⟨1, 5, 5⟩] = true
    ∧ within (fun n => .writeSchedule (List.replicate n ⟨1, 0, 1⟩)) [0, 16] [17] = true := by decide +kernel

theorem test_part_ranges :
    let w {α : Type} (f : α → PartFields) := within fun n => .writePassageConfig (.part (f n))
    turnedAway (.writePassageConfig (.part noPart)) = true
    ∧ w (fun n => { noPart with releaseWindow := some n }) [3, 30] [2, 31] = true
    ∧ w (fun n => { noPart with heldOpenLimit := some n }) [10, 300] [9, 301] = true
    ∧ w (fun n => { noPart with pairingWindow := some n }) [10, 120] [9, 121] = true
    ∧ w (fun n => { noPart with sweepInterval := some n }) [15, 600] [14, 601] = true
    ∧ w (fun n => { noPart with loopRate := some n }) [0, 1] [2] = true := by decide +kernel

theorem test_zone_ranges :
    let w {α : Type} (f : α → ZoneFields) := within fun n => .writePassageConfig (.zone 15 (f n))
    turnedAway (.writePassageConfig (.zone 15 noZone)) = true
    ∧ turnedAway (.writePassageConfig (.zone 16 { noZone with cap := some 1 })) = true
    ∧ w (fun n => { noZone with outerRail := some n }) [0, 1] [2] = true ∧ w (fun n => { noZone with innerRail := some n }) [0, 1] [2] = true
    ∧ w (fun n => { noZone with outerConfigured := some n }) [0, 1] [2] = true
    ∧ w (fun n => { noZone with innerConfigured := some n }) [0, 1] [2] = true ∧ w (fun n => { noZone with cap := some n }) [1, 24] [0, 25] = true
    ∧ w (fun n => { noZone with pinAfterHours := some n }) [0, 1] [2] = true
    ∧ w (fun n => { noZone with travelLimit := some n }) [200, 2000] [199, 2001] = true
    ∧ w (fun n => { noZone with loneInterval := some n }) [5, 60] [4, 61] = true := by decide +kernel

theorem test_suppression_ranges :
    let w {α : Type} (f : α → SuppressionFields) := within fun n => .writeSuppressionConfig 15 (f n)
    turnedAway (.writeSuppressionConfig 16 noSupp) = true ∧ passes (.writeSuppressionConfig 15 noSupp) = true
    ∧ w (fun n => { noSupp with coincidence := some n }) [1, 3] [0, 4] = true
    ∧ w (fun n => { noSupp with preDischarge := some n, resume := some 5 }) [10, 120] [9, 121] = true
    ∧ w (fun n => { noSupp with preDischarge := some 120, resume := some n }) [5, 30] [4, 31] = true
    ∧ w (fun n => { noSupp with preDischarge := some 10, resume := some n }) [10] [11] = true
    ∧ w (fun n => { noSupp with confirmTime := some n }) [2, 30] [1, 31] = true
    ∧ w (fun n => { noSupp with soakTime := some n }) [60, 3600] [59, 3601] = true := by decide +kernel

/-- An argument in and outside its codes for each form; a value held and not, for one zone and for ALL; each ground for WRONG_STATE by itself: a cap below
the roster, a structural field of a zone IN_SERVICE or with a release at a door, a suppression state, and the four of SET_SERVICE OUT; the slot and the
store free and taken. -/
theorem test_witness_StoreWriteBegins :
    let busy : State := { up with store.write := some ⟨.access, 0⟩ }
    let every : State := { up with store.control.value := { up.control with lockdown := Vector.replicate 16 true } }
    let z : ZoneFields := ⟨none, none, none, none, none, none, none, none⟩
    let peopled : State := { up with pool := [entry 0 15 7, entry 1 15 8] }
    let empty := emptyZone 15 (served 15 up)
    let loud (b : Bool) : State := { empty with alarms.queue := [alarm .panic 15 b] }
    let alert := withSupp 15 (fun x => { x with state := .alert }) up
    let isolated := withSupp 15 (fun x => { x with state := .isolated }) up
    let cap (n : Byte) : Request := .writePassageConfig (.zone 15 { z with cap := some n })
    let rail : Request := .writePassageConfig (.zone 15 { z with outerRail := some 1 })
    Request.writes (.excludeSweep 15) = true ∧ permitted .guard (.excludeSweep 15) = true ∧ up.ready .guard = true
    ∧ writeArgument (.excludeSweep 16) = some .badArgument ∧ writeArgument (.excludeSweep 15) = none
    ∧ writeArgument (.lockdown (.zone 16)) = some .badArgument ∧ writeArgument (.lockdown .all) = none
    ∧ writeArgument (.setService 15 2) = some .badArgument ∧ writeArgument (.setService 15 1) = none
    ∧ writeArgument (.enableForceChord 2) = some .badArgument ∧ writeArgument (.enableForceChord 1) = none
    ∧ writeHeld (.excludeSweep 15) up = false ∧ writeHeld (.includeSweep 15) up = true
    ∧ writeHeld (.lockdown (.zone 15)) (locked 15 up) = true ∧ writeHeld (.lockdown .all) (locked 15 up) = false
    ∧ writeHeld (.endLockdown .all) (locked 15 up) = false ∧ writeHeld (.endLockdown .all) up = true ∧ writeHeld (.lockdown .all) every = true
    ∧ writeHeld (.setService 15 0) (served 15 up) = true ∧ writeHeld (.setService 15 1) up = true
    ∧ writeHeld (.enableForceChord 0) up ≠ writeHeld (.enableForceChord 1) up
    ∧ writeTest (cap 1) peopled = some .wrongState ∧ writeTest (cap 2) peopled = none
    ∧ writeTest rail (served 15 up) = some .wrongState ∧ writeTest rail (carrying 31 .queued (release .passage) up) = some .wrongState
    ∧ writeTest rail (carrying 30 .queued (release .passage) up) = some .wrongState ∧ writeTest rail up = none
    ∧ writeTest (.writeSuppressionConfig 15 ⟨some 1, none, none, none, none⟩) alert = some .wrongState
    ∧ writeTest (.isolate 15) alert = none ∧ writeTest (.isolate 15) isolated = some .wrongState ∧ writeTest (.isolate 16) up = some .badArgument
    ∧ writeTest (.deisolate 15) isolated = none ∧ writeTest (.deisolate 15) alert = some .wrongState ∧ writeTest (.deisolate 16) up = some .badArgument
    ∧ writeTest (.setService 15 1) empty = none ∧ writeTest (.setService 15 1) (served 15 up) = some .wrongState
    ∧ writeTest (.setService 15 1) { empty with pool := [entry 0 15 7] } = some .wrongState
    ∧ writeTest (.setService 15 1) (withSupp 15 (fun x => { x with state := .alert }) empty) = some .wrongState
    ∧ writeTest (.setService 15 1) (loud true) = some .wrongState ∧ writeTest (.setService 15 1) (loud false) = none
    ∧ writeTest (.setService 15 0) up = none ∧ writeTest (.enableForceChord 0) up = none ∧ zoneArg 15 = some 15
    ∧ writeTest (.excludeSweep 15) up = none ∧ up.store.write = none ∧ busy.store.write ≠ none ∧ busy.ready .guard = true := by
  decide +kernel

/-- A held request of each form that passes its tests, a DEISOLATE below and at the coincidence count, and one that fails. -/
theorem test_witness_StoreCommitTakesEffect :
    let held (r : Request) : State :=
      withPort .guard (fun x => { x with slot := some r }) { up with store.write := some ⟨.guard, 0⟩ }
    let served := withZone 15 (fun x => { x with inService := true }) up
    let isolated (ds : List Byte) := withSupp 15 (fun x => { x with state := .isolated, detectors := ds }) up
    (held (.excludeSweep 0)).store.write = some ⟨.guard, 0⟩ ∧ ((held (.excludeSweep 0)).port .guard).slot = some (.excludeSweep 0)
    ∧ writeTest (.excludeSweep 0) up = none ∧ writeTest (.includeSweep 15) up = none
    ∧ writeTest (.lockdown (.zone 15)) up = none ∧ writeTest (.lockdown .all) up = none
    ∧ writeTest (.endLockdown (.zone 15)) up = none ∧ writeTest (.endLockdown .all) up = none
    ∧ writeTest (.isolate 15) up = none ∧ writeTest (.deisolate 15) (isolated [1]) = none
    ∧ ((isolated [1]).suppRec 15).detectors.length < ((isolated [1]).cfg 15).coincidence
    ∧ ((isolated [1, 2]).cfg 15).coincidence ≤ ((isolated [1, 2]).suppRec 15).detectors.length
    ∧ writeTest (.writeSuppressionConfig 15 ⟨some 1, none, none, none, none⟩) up = none
    ∧ writeTest (.writePassageConfig (.zone 15 ⟨none, none, none, none, some 24, none, none, none⟩)) up = none
    ∧ writeTest (.writePassageConfig (.part ⟨some 8, none, none, none, none⟩)) up = none
    ∧ writeTest (.writeSchedule [⟨1, 0, 1⟩]) up = none
    ∧ writeTest (.enableForceChord 0) up = none ∧ writeTest (.enableForceChord 1) up = none
    ∧ writeTest (.setService 15 1) served = some .wrongState
    ∧ writeTest (.setService 15 1) (emptyZone 15 served) = none
    ∧ directionArg 1 = some false ∧ directionArg 0 = some true ∧ zoneArg 15 = some 15 := by decide +kernel

theorem test_witness_ServiceChangesAtCommit : serviceTest 15 false (emptyZone 15 up) = none := by decide +kernel

/-- A command queued for an ONLINE station; a turn of an ONLINE and of an OFFLINE one; none. -/
theorem test_witness_ExchangeSendsCommandOrPoll :
    let run := withLoop 1 (fun x => { x with state := .running }) up
    let on := withSlot 1 15 (fun x => { x with online := .online }) run
    let off := withSlot 1 15 (fun x => { x with online := .offline }) run
    let cmd := withLoop 1 (fun x => { x with queue := [⟨15, .throwBolt, false⟩] }) on
    let find (s : State) := (s.loop 1).queue.find? fun c => (nth (s.loop 1).slots c.slot).online == .online
    let turn (s : State) := (pollOrder (s.loop 1).lastPolled).find? fun a => (nth (s.loop 1).slots a).online != .absent
    (run.loop 1).state = .running ∧ (run.loop 1).exchange = none ∧ find run = none ∧ turn run = none
    ∧ find cmd = some ⟨15, .throwBolt, false⟩ ∧ find on = none ∧ turn on = some 15 ∧ (on.slot 1 15).online = .online
    ∧ find off = none ∧ turn off = some 15 ∧ (off.slot 1 15).online = .offline := by decide +kernel

/-- Counts 1 and 2, ONLINE and OFFLINE, a door in each state of the moving set and in each other, a reply that is not valid, and a sweep that awaits the station's reply and one that does not. -/
theorem test_witness_MissesTakeAStationOffline :
    let s (n : Nat) (o : OnlineState) := withSlot 1 15 (fun x => { x with online := o, missed := n })
      (withLoop 1 (fun x => { x with exchange := some ⟨15, none⟩ }) up)
    ((s 1 .online).loop 1).exchange = some ⟨15, none⟩ ∧ validReply ⟨15, none⟩ [16, 0, 0, 0] = none
    ∧ ((s 1 .online).slot 1 15).missed ≠ 2 ∧ ((s 2 .offline).slot 1 15).missed = 2
    ∧ ((s 2 .offline).slot 1 15).online = .offline ∧ ((s 2 .online).slot 1 15).online = .online
    ∧ (s 2 .online).sweep.inProgress = none ∧ (s 2 .online).alarms.queue.length < 32
    ∧ ((s 2 .online).door (doorAt 1 15)).release = none ∧ (14 : Zone) ≠ zoneOf (doorAt 1 15)
    ∧ (∀ st ∈ [DoorState.withdrawing, .unlocked, .opened, .throwing],
        ((carrying 31 st (release .passage) (s 2 .online)).door (doorAt 1 15)).state.moving = true)
    ∧ (∀ st ∈ [DoorState.secured, .queued, .fault, .unverified],
        ((withDoor 31 (fun x => { x with state := st }) (s 2 .online)).door (doorAt 1 15)).state.moving = false)
    ∧ (sweeping none none (s 2 .online)).sweep.inProgress = some ⟨15, .scheduled, none, none, none⟩
    ∧ (15 : Zone) = zoneOf (doorAt 1 15) ∧ isOuter (doorAt 1 15) = false ∧ (sweeping none none (s 2 .online)).sweep.allList = none
    ∧ (sweeping none (some ⟨false, false, 0, 0, 0⟩) (s 2 .online)).sweep.inProgress.bind (·.inner) ≠ none := by decide +kernel

/-- The reports that `validReply` reads of a reply. -/
def repliesRead (x : Exchange) (body : List Byte) : Option (List (Option Report)) :=
  (validReply x (stationBytes body)).map fun f => f.reports

/-- The station ONLINE and OFFLINE, its loop RUNNING, an exchange begun. -/
theorem test_witness_ValidReplyIsTaken :
    let s (o : OnlineState) := withSlot 1 15 (fun x => { x with online := o })
      (withLoop 1 (fun x => { x with state := .running, exchange := some ⟨15, none⟩ }) up)
    ((s .online).loop 1).exchange = some ⟨15, none⟩ ∧ ((s .online).slot 1 15).online = .online
    ∧ ((s .offline).slot 1 15).online = .offline ∧ ((s .offline).loop 1).state = .running := by decide +kernel

/-- Replies of the station at address 16: empty; one report; two reports; one out of range; overflow; a STATUS record. -/
theorem test_replies_read :
    repliesRead ⟨15, none⟩ [16, 0] = some []
    ∧ repliesRead ⟨15, none⟩ [16, 1, 4, 0] = some [some (.beam true)]
    ∧ repliesRead ⟨15, none⟩ [16, 2, 4, 0, 5, 1] = some [some (.beam true), some (.tamper true)]
    ∧ repliesRead ⟨15, none⟩ [16, 1, 4, 9] = some [none]
    ∧ (validReply ⟨15, none⟩ (stationBytes [16, 0x80])).map (·.overflow) = some true
    ∧ ((validReply ⟨15, some .statusQuery⟩ (stationBytes ([16, 0x40] ++ statusBody))).bind (·.status)).isSome = true := by
  decide +kernel

/-- A station lost under a door that moves adds STATION_LOST, under one SECURED, QUEUED or in FAULT none, whether the station or its loop goes
(R9, R41, R164). -/
theorem test_station_lost_reasons :
    let s (st : DoorState) := emptyZone 15 (withSlot 1 15 (fun x => { x with configured := true, online := .online, missed := 2 })
      (withLoop 1 (fun x => { x with state := .running, exchange := some ⟨15, none⟩ }) (withDoor 31 (fun x => { x with state := st }) up)))
    (∀ st ∈ [DoorState.unlocked, .throwing], ∀ c ∈ [Instr.replyWindowMiss 1, .loopBreak 1], ((after c (s st)).zone 15).reasons.stationLost = true)
    ∧ (∀ st ∈ [DoorState.secured, .queued, .fault], ∀ c ∈ [Instr.replyWindowMiss 1, .loopBreak 1], ((after c (s st)).zone 15).reasons = ReasonSet.empty) := by
  decide +kernel

/-- A loop RUNNING with a station ONLINE, its door moving and not, with no sweep and with one that awaits a station of the loop; a loop CUT. -/
theorem test_witness_BreakCutsAndReturnRestores :
    let run := withSlot 1 15 (fun x => { x with configured := true, online := .online }) (withLoop 1 (fun x => { x with state := .running }) up)
    (run.loop 1).state = .running ∧ run.sweep.inProgress = none ∧ run.alarms.queue.length < 32
    ∧ (run.slot 1 15).configured = true ∧ (run.slot 1 15).online = .online ∧ (run.door (doorAt 1 15)).release = none
    ∧ ((carrying 31 .opened (release .passage) run).door (doorAt 1 15)).state.moving = true
    ∧ loopOf 15 = 1 ∧ (31 : DoorId) = innerDoor 15 ∧ slotOf 31 = 15 ∧ (run.door 31).state.moving = false ∧ loopOf 0 = 0
    ∧ (sweeping none none run).sweep.inProgress = some ⟨15, .scheduled, none, none, none⟩
    ∧ (sweeping none none run).sweep.allList = none
    ∧ ((withLoop 1 (fun x => { x with state := .cut }) up).loop 1).state = .cut := by decide +kernel

/-- A door in each state the clauses name, FAULT forced and not, OPEN with a HOLD bound to relock and not, with a release, cut and not, and with none, and in states where a BOLT report tells its travel alone;
a travel at the limit and one above it; the other door moving and not; 30, 31 and 32 alarm records. -/
theorem test_witness_ReportsMoveTheDoor :
    let held (st : DoorState) (k : ReleaseKind) := carrying 31 st (release k) up
    let cut := carrying 31 .withdrawing { release .passage with cut := true } up
    let clash := withDoor 30 (fun x => { x with state := .opened }) (held .queued .passage)
    let other (s : State) := withDoor 30 (fun x => { x with state := .opened }) s
    let relocks := withDoor 31 (fun x => { x with relock := true }) (held .opened .hold)
    let bare (st : DoorState) := withDoor 31 (fun x => { x with state := st, contact := .closed }) up
    let alarms (n : Nat) : State := { up with alarms.queue := List.replicate n (alarm .panic 3 true) }
    ((held .unlocked .passage).door 31).state = .unlocked ∧ ((held .withdrawing .hold).door 31).state = .withdrawing
    ∧ ((held .throwing .passage).door 31).state = .throwing
    ∧ ((bare .secured).door 31).state = .secured ∧ ((held .queued .passage).door 31).state = .queued
    ∧ ((held .queued .passage).door 31).release = some (release .passage)
    ∧ up.inEvacuation (zoneOf 31) = false ∧ (clash.door (otherDoor 31)).state.moving = true
    ∧ (up.door (otherDoor 31)).state.moving = false
    ∧ (alarms 30).alarms.queue.length < 31 ∧ (alarms 31).alarms.queue.length < 32 ∧ ¬ (alarms 32).alarms.queue.length < 32
    ∧ ((held .opened .passage).door 31).state = .opened
    ∧ ((held .opened .passage).door 31).release = some (release .passage) ∧ (release .passage).kind ≠ .hold
    ∧ (release .hold).cut = false ∧ (cut.door 31).release = some { release .passage with cut := true }
    ∧ (up.cfg (zoneOf 31)).travelLimit = 600
    ∧ ((bare .throwing).door 31).state = .throwing ∧ ((bare .fault).door 31).state = .fault
    ∧ ((bare .throwing).door 31).contact = .closed
    ∧ (up.door 31).state = .unverified ∧ (up.door 31).release = none ∧ ((other up).door 31).state = .unverified
    ∧ ((other up).door 31).release = none ∧ (other up).inEvacuation (zoneOf 31) = false
    ∧ ((other up).door (otherDoor 31)).state.moving = true
    ∧ ((bare .fault).door 31).forced = false
    ∧ ((withDoor 31 (fun x => { x with forced := true }) (bare .fault)).door 31).forced = true
    ∧ ((withDoor 31 (fun x => { x with forced := true }) (bare .fault)).door 31).state = .fault
    ∧ ((bare .opened).door 31).release = none ∧ ((held .opened .hold).door 31).release = some (release .hold)
    ∧ (release .hold).kind = .hold ∧ ((held .opened .hold).door 31).relock = false ∧ (relocks.door 31).relock = true
    ∧ (relocks.door 31).state = .opened ∧ (relocks.door 31).release = some (release .hold)
    ∧ ((held .withdrawing .passage).door 31).release = some (release .passage) ∧ (release .passage).cut = false
    ∧ ((bare .opened).door 31).state ≠ .withdrawing ∧ ((bare .opened).door 31).state ≠ .secured ∧ ((bare .opened).door 31).state ≠ .queued
    ∧ ((bare .opened).door 31).state ≠ .throwing ∧ ((bare .opened).door 31).state ≠ .fault
    ∧ ((held .throwing .passage).door 31).contact ≠ .closed := by decide +kernel

/-- A travel within the limit of a BOLT report in OPEN ends LOCK_DEGRADED; one above it in SECURED raises it (R27, R51, R109, log entry 42). -/
theorem test_every_travel_is_judged :
    let slow := judgeTravel 31 601 (withDoor 31 (fun x => { x with state := .opened }) up)
    let t := boltReport 31 true 600 slow
    slow.alarmPresent .lockDegraded (some 15) (.door 31) = true ∧ (t.door 31).degraded = false ∧ (t.door 31).state = .opened
    ∧ t.alarmPresent .lockDegraded (some 15) (.door 31) = false
    ∧ (boltReport 31 false 601 (secured 31 up)).alarmPresent .lockDegraded (some 15) (.door 31) = true
    ∧ (statusReport 31 true true 601 up).alarmPresent .lockDegraded (some 15) (.door 31) = true := by decide +kernel

/-- HELD, PREDISCHARGE and HELD again within one reply: the HOLD pattern begins anew with its sounding part (R145). -/
theorem test_pattern_begins_anew :
    let s := at_ 700 (withSupp 0 (fun x => { x with state := .held, holds := ⟨false, true, false, false, false⟩ }) up)
    let s := { s with lines.outputs := put s.lines.outputs 0 ⟨false, false, .hold, false, 0⟩ }
    let t := takeCertainty 0 .occupied (takeCertainty 0 .empty s)
    (t.suppRec 0).state = .held ∧ (t.output 0).pattern = .hold ∧ (t.output 0).since = 700 ∧ (t.output 0).sounding = true := by
  decide +kernel

/-- Crossings under an inner release of origin MASTER are settled at once, with no tally and no TAILGATE (R78): in with room, in at the cap, out with
an anonymous INNER entry, out with none. -/
theorem test_master_crossings :
    let base (es : List Entry) := withZone 15 (fun x => { x with headcount := 3, headcountValid := true, reasons := ReasonSet.empty })
      (carrying 31 .opened { release .passage with origin := .master } { up with pool := es })
    let beam (i : Bool) (s : State) := takeReport 1 15 (.beam i) s
    let nobody : Entry := { entry 1 15 7 with badge := none, role := .unidentified, location := .inner }
    let few := beam true (base [entry 0 15 8])
    let full := beam true (withCfg 15 (fun x => { x with cap := 1 }) (base [entry 0 15 8]))
    let out := beam false (base [nobody, { nobody with number := 2 }])
    let none_ := beam false (base [])
    few.pool.map (fun e => (e.number, e.badge, e.location)) = [(0, some 8, .admitted), (1, none, .inner)]
    ∧ (few.zone 15).reasons = ReasonSet.empty ∧ (few.zone 15).headcount = 4 ∧ (few.zonePassage 15).tallyIn = 0
    ∧ full.pool.length = 1 ∧ (full.zone 15).reasons.tailgateOverflow = true
    ∧ out.pool.map (·.location) = [.vestibule, .inner] ∧ (out.zone 15).reasons = ReasonSet.empty
    ∧ none_.pool = [] ∧ (none_.zone 15).reasons.unbadgedExit = true ∧ few.alarms.queue = [] ∧ full.alarms.queue = [] := by decide +kernel

/-- Door 31 inner, door 30 outer: the side listed for each; SECURED, UNLOCKED with an egress release, and neither; a crossing under a release
of the reader and under none, headcounts 0 and 255; one under a release of the master with room, at the cap and with the pool full, with an anonymous INNER entry
and none; a tamper switch off, on and unknown. -/
theorem test_witness_ReportsReachTheirUnits :
    let free := { release .egress with origin := .rex }
    let master := carrying 31 .opened { release .passage with origin := .master } up
    let anonymous (e : Entry) : Bool := e.zone == 15 && e.badge == none && e.location == .inner
    let capped := withCfg 15 (fun x => { x with cap := 1 }) { master with pool := [{ entry 0 15 7 with badge := none, location := .inner }] }
    let full : State := { master with pool := allEntryNos.map fun n => entry n 3 9 }
    doorAt 1 15 = 31 ∧ doorAt 1 14 = 30 ∧ isOuter 31 = false ∧ isOuter 30 = true
    ∧ (master.door 31).state.moving = true ∧ (master.door 31).release = some { release .passage with origin := .master }
    ∧ lowestFree master.pool = some 0 ∧ (master.roster 15).length < (master.cfg 15).cap ∧ master.pool.any anonymous = false
    ∧ (capped.door 31).state.moving = true ∧ (capped.roster 15).length = (capped.cfg 15).cap ∧ capped.pool.any anonymous = true
    ∧ (full.door 31).state.moving = true ∧ lowestFree full.pool = none
    ∧ 0 < ((withZone 15 (fun x => { x with headcount := 254 }) master).zone 15).headcount
    ∧ ((withZone 15 (fun x => { x with headcount := 254 }) master).zone 15).headcount < 255
    ∧ ((secured 31 up).door 31).state = .secured
    ∧ ((carrying 31 .unlocked free up).door 31).state = .unlocked ∧ ((carrying 31 .unlocked free up).door 31).release = some free
    ∧ free.kind = .egress ∧ free.opened = false
    ∧ (up.door 31).state ≠ .secured ∧ (up.door 31).unopened .egress = false ∧ (up.zone 15).headcount ≤ 255
    ∧ ((withZone 15 (fun x => { x with headcount := 255 }) up).zone 15).headcount ≤ 255
    ∧ ((carrying 31 .opened (release .passage) up).door 31).state.moving = true ∧ (release .passage).origin ≠ .master
    ∧ (up.door 31).state.moving = false ∧ up.alarms.queue.length < 32 ∧ (up.slot 1 15).tamper ≠ .on
    ∧ ((withSlot 1 15 (fun x => { x with tamper := .on }) up).slot 1 15).tamper = .on
    ∧ ((withSlot 1 15 (fun x => { x with tamper := .off }) up).slot 1 15).tamper = .off := by decide +kernel

/-- Badges 0 and 1, DURESS and ENTER; a zone egress only by evacuation, by its lockdown flag and by service alone, and one not; a query of the door and none; 7 and 8 queries; SILENT and not; 47 and 48 notices. -/
theorem test_witness_CorridorBadgesAreDecided :
    let q (i : Byte) (d : DoorId) : Query := ⟨i, d, 7, .none, [], 0, false⟩
    let asked (d : DoorId) (n : Nat) : State := { up with passage.queries := ((List.range n).map fun i => q (BitVec.ofNat 8 i) d) }
    let notices (n : Nat) := withPort .access (fun x => { x with notices := List.replicate n Notice.resyncReset }) up
    isOuter (doorAt 1 14) = true ∧ isOuter (doorAt 1 15) = false ∧ badgeOk 0 = false ∧ badgeOk 1 = true
    ∧ up.egressOnly 15 = true ∧ (served 15 up).egressOnly 15 = false ∧ (served 15 (asked 30 1)).egressOnly 15 = false
    ∧ (evacuated 15 up).egressOnly 15 = true ∧ (evacuated 15 up).inEvacuation 15 = true ∧ (locked 15 up).egressOnly 15 = true
    ∧ (locked 15 up).inEvacuation 15 = false ∧ (locked 15 up).lockdownFlag 15 = true ∧ up.inEvacuation 15 = false
    ∧ up.lockdownFlag 15 = false ∧ Terminator.enter ≠ .duress
    ∧ ((asked 30 1).passage.queries.any fun x => x.door == 30) = true ∧ ((asked 4 8).passage.queries.all fun x => x.door != 30) = true
    ∧ (asked 4 7).passage.queries.length < 8 ∧ 8 ≤ (asked 4 8).passage.queries.length ∧ up.passage.silent = false
    ∧ ({ up with passage.silent := true } : State).passage.silent = true
    ∧ (notices 47).ports.access.notices.length < 48 ∧ 48 ≤ (notices 48).ports.access.notices.length
    ∧ up.alarms.queue.length < 32 := by decide +kernel

/-- An entry at VESTIBULE and at INNER; the inner door SECURED in a zone that takes requests and in one that does not; a release of the live
group, of none, of another group and of another kind; a THROWING door with a release not yet opened; AFTER_HOURS and DAY_HOURS. -/
theorem test_witness_InnerBadgesAreDecided :
    let inside (x : Location) : State := { up with pool := [{ entry 95 15 7 with location := x, group := some 9 }] }
    let grouped := (inside .vestibule).setZonePassage 15 { (up.zonePassage 15) with vestibuleGroup := some 9 }
    let rides := carrying 31 .unlocked { release .passage with group := some 9 } grouped
    let exits := carrying 31 .queued (release .egress) (inside .inner)
    let thrown := carrying 31 .throwing { release .passage with group := some 9, lapsed := true } grouped
    let leaves := carrying 31 .throwing { release .egress with cut := true } (inside .inner)
    let other := carrying 31 .unlocked { release .passage with group := some 8 } grouped
    let alone := carrying 31 .unlocked (release .passage) grouped
    isOuter (doorAt 1 15) = false ∧ badgeOk 7 = true
    ∧ entryHere up 15 7 .vestibule = none ∧ (entryHere (inside .vestibule) 15 7 .vestibule).isSome = true
    ∧ entryHere up 15 7 .inner = none ∧ (entryHere (inside .inner) 15 7 .inner).isSome = true
    ∧ ((secured 31 (served 15 (inside .inner))).door 31).state = .secured ∧ ((secured 31 up).door 31).release = none
    ∧ ((secured 31 (inside .vestibule)).door 31).state = .secured ∧ ((secured 31 (inside .vestibule)).door 31).release = none
    ∧ (secured 31 (inside .vestibule)).egressOnly 15 = true ∧ (entryHere (secured 31 (inside .vestibule)) 15 7 .vestibule).isSome = true
    ∧ (served 15 (inside .vestibule)).egressOnly 15 = false ∧ (inside .vestibule).egressOnly 15 = true
    ∧ liveGroup grouped (grouped.zonePassage 15).vestibuleGroup = some 9 ∧ (rides.door 31).state = .unlocked
    ∧ liveGroup rides (rides.zonePassage 15).vestibuleGroup = some 9
    ∧ (rides.door 31).release = some { release .passage with group := some 9 }
    ∧ (exits.door 31).state = .queued ∧ (exits.door 31).release = some (release .egress)
    ∧ (up.door 31).state ≠ .secured ∧ (up.door 31).unopened .passage = false ∧ (up.door 31).unopened .egress = false
    ∧ (thrown.door 31).state = .throwing ∧ (thrown.door 31).unopened .passage = true
    ∧ liveGroup thrown (thrown.zonePassage 15).vestibuleGroup = (thrown.door 31).group
    ∧ (leaves.door 31).state = .throwing ∧ (leaves.door 31).unopened .egress = true
    ∧ (other.door 31).state = .unlocked ∧ (other.door 31).unopened .passage = true
    ∧ (other.door 31).group ≠ liveGroup other (other.zonePassage 15).vestibuleGroup ∧ (alone.door 31).group = none
    ∧ up.hours.state = .afterHours ∧ ({ up with hours.state := .dayHours } : State).hours.state = .dayHours := by decide +kernel

/-- An inner release that ends ABANDONED after opening moves nothing, discards the tally and adds COUNT_MISMATCH (R73, R76); one that ends unopened adds it
for crossings counted, and for none not (R72, R78). -/
theorem test_inner_releases_end :
    let e (x : Location) : Entry := { entry 0 15 7 with location := x, group := some 9 }
    let s (x : Location) (n : Nat) : State := (emptyZone 15 { up with pool := [e x] }).setZonePassage 15
      { (up.zonePassage 15) with vestibuleGroup := some 9, exitGroup := some 9, tallyIn := n, tallyOut := 1, pendingInner := true }
    let calm : State := (emptyZone 15 { up with pool := [e .vestibule] })
    let r (k : ReleaseKind) (o : Bool) : Release := { release k with group := some 9, opened := o }
    let lost := releaseEnded 31 (r .passage true) .abandoned true (s .vestibule 1)
    let gone := releaseEnded 31 (r .egress true) .abandoned true (s .inner 1)
    let shut := releaseEnded 31 (r .passage false) .lapsed false (s .vestibule 1)
    let none_ := releaseEnded 31 (r .passage false) .lapsed false calm
    lost.pool = [e .vestibule] ∧ (lost.zonePassage 15).vestibuleGroup = some 9 ∧ (lost.zonePassage 15).tallyIn = 0
    ∧ (lost.zone 15).reasons.countMismatch = true
    ∧ gone.pool = [{ e .inner with group := none }] ∧ (gone.zonePassage 15).exitGroup = none ∧ (gone.zonePassage 15).tallyOut = 0
    ∧ (gone.zone 15).reasons.countMismatch = true
    ∧ shut.pool = [e .vestibule] ∧ (shut.zone 15).reasons.countMismatch = true ∧ (shut.zonePassage 15).pendingInner = false
    ∧ (none_.zone 15).reasons = ReasonSet.empty := by decide +kernel

/-- Crossings fewer than the group, as many, and more; outward fewer than inward, and 0, 1 and 2 net with one entry of the group and one that
is anonymous; a release of each kind opened and not, and crossings counted under it: one count 0, both 0, origin MASTER and another, and an outcome of a
release that had not left QUEUED. -/
theorem test_witness_CyclesAreSettled :
    let e (x : Location) : Entry := { entry 0 15 7 with location := x, group := some 9 }
    let nobody : Entry := { entry 1 15 7 with badge := none, location := .inner }
    let s (x : Location) (i o : Nat) : State :=
      { up with pool := [e x, nobody] }.setZonePassage 15 { (up.zonePassage 15) with tallyIn := i, tallyOut := o }
    let size (x : Location) : Nat := ((s x 0 0).pool.filter fun y => y.zone == 15 && y.group == some 9 && y.location == x).length
    let r (k : ReleaseKind) (o : Bool) : Release := { release k with group := some 9, opened := o }
    let counted (y : Release) (outcome : ReleaseEnd) (i : Nat) : Bool := y.origin != .master
      && (outcome == .complete || outcome == .lapsed || outcome == .abandoned) && !(((s .inner i 0).zonePassage 15).tallyIn == 0)
    (r .passage true).opened = true ∧ (r .passage true).kind = .passage ∧ (r .passage true).group = some 9 ∧ ReleaseEnd.complete ≠ .abandoned
    ∧ (r .egress true).opened = true ∧ (r .egress true).kind = .egress ∧ (r .passage false).opened = false
    ∧ counted (r .passage false) .lapsed 1 = true ∧ counted (r .passage false) .lapsed 0 = false
    ∧ counted { r .passage false with origin := .master } .lapsed 1 = false ∧ counted (r .passage false) .cancelled 1 = false
    ∧ ((s .inner 0 0).pool.map (·.number)).Nodup ∧ size .vestibule = 1 ∧ size .inner = 1
    ∧ ((s .vestibule 0 0).zonePassage 15).tallyIn < size .vestibule + ((s .vestibule 0 0).zonePassage 15).tallyOut
    ∧ ((s .vestibule 1 0).zonePassage 15).tallyIn = size .vestibule + ((s .vestibule 1 0).zonePassage 15).tallyOut
    ∧ size .vestibule + ((s .vestibule 2 0).zonePassage 15).tallyOut < ((s .vestibule 2 0).zonePassage 15).tallyIn
    ∧ ((s .inner 1 0).zonePassage 15).tallyOut < ((s .inner 1 0).zonePassage 15).tallyIn
    ∧ ((s .inner 0 2).zonePassage 15).tallyIn ≤ ((s .inner 0 2).zonePassage 15).tallyOut
    ∧ ((s .inner 0 0).zonePassage 15).tallyIn ≤ ((s .inner 0 0).zonePassage 15).tallyOut
    ∧ ((s .inner 0 0).pool.filter fun y => y.zone == 15 && y.badge == none && y.location == .inner).length = 1
    ∧ (s .inner 0 0).alarms.queue.length < 32 := by decide +kernel

/-- A door UNVERIFIED with the other at rest and moving, one in FAULT and one in another state; a travel at the limit and above it; a baseline unknown and one whose missing crossings are 0, 255 and 256; a sweep of no
zone, of another, and one with the other reply received and with replies that match, do not, and are slow. -/
theorem test_witness_StatusRepliesReconcileAndSweep :
    let clash := carrying 30 .opened (release .passage) up
    let base := withSlot 1 15 (fun x => { x with tallies := some (5, 3) }) up
    let fine : SweepReply := ⟨false, false, 600, 0, 0⟩
    let one := sweeping (some fine) none up
    let fit := emptyZone 15 (secured 30 (secured 31 one))
    (up.door 31).state = .unverified ∧ clash.inEvacuation 15 = false ∧ (clash.door (otherDoor 31)).state.moving = true
    ∧ (clash.door 31).state = .unverified ∧ (up.door (otherDoor 31)).state.moving = false
    ∧ (up.slot (loopOf 15) (slotOf (innerDoor 15))).tallies = none
    ∧ (base.slot (loopOf 15) (slotOf (innerDoor 15))).tallies = some (5, 3)
    ∧ missingCrossings 5 5 (nth base.sweep.beamsIn 15) = 0 ∧ missingCrossings 260 5 (nth base.sweep.beamsIn 15) = 255
    ∧ missingCrossings 261 5 (nth base.sweep.beamsIn 15) = 256 ∧ missingCrossings 0 65535 0 = 1
    ∧ up.sweep.inProgress = none ∧ one.sweep.inProgress = some ⟨15, .scheduled, some fine, none, none⟩ ∧ (15 : Zone) ≠ 14
    ∧ (fit.zone 15).headcountValid = true ∧ (fit.zone 15).headcount = fit.countAt 15 .inner
    ∧ (fit.door (outerDoor 15)).state = .secured ∧ (fit.door (innerDoor 15)).state = .secured
    ∧ (fit.cfg 15).travelLimit = fine.travel ∧ (up.zone 15).headcountValid = false ∧ fine.travel ≤ (up.cfg (zoneOf 31)).travelLimit
    ∧ (up.cfg (zoneOf 31)).travelLimit < 601 ∧ up.alarms.queue.length < 31 ∧ ((secured 31 up).door 31).state ≠ .unverified
    ∧ ((secured 31 up).door 31).state ≠ .fault ∧ ((withDoor 31 (fun x => { x with state := .fault }) up).door 31).state = .fault := by
  decide +kernel

theorem test_witness_SweepResultsAreApplied :
    let s := withZone 15 (fun x => { x with inService := true, deferrals := 2 }) up
    SweepOutcome.pass ≠ .none ∧ s.sweep.allList = none ∧ (s.zone 15).inService = true ∧ 2 ≤ (s.zone 15).deferrals
    ∧ (up.zone 15).inService = false ∧ s.alarms.queue.length < 32 := by decide +kernel

/-- A query 750 ms old, a cache entry whose expiry has come. -/
theorem test_witness_QueryTimesOutAndCacheExpires :
    let q : Query := ⟨1, 0, 7, .none, [], 0, false⟩
    let s : State := { up with passage.queries := [q], passage.timeouts := 2, passage.cache := [⟨9, .staff, 1, false, 0⟩] }
    lateQuery (at_ 750 s) 1 = some q ∧ lateQuery (at_ 749 s) 1 = none ∧ 2 ≤ s.passage.timeouts
    ∧ (s.passage.cache.any fun e => e.badge == q.badge) = false
    ∧ (s.passage.cache.any fun e => e.badge == 9 && e.expiresAt ≤ s.uptime) = true := by decide +kernel

/-- A settle time ended; a QUEUED release with each of the other reasons, on its rail and off it, an egress one in evacuation and not; a rail with
room and without, its queue empty, of 7 and of 8, with a non-egress release and without; a wait of 10 s; a rail queue of two and one outside. -/
theorem test_witness_QueuedReleasesMoveOn :
    let waiting (k : ReleaseKind) (w : WaitSet) := withDoor 31 (fun x => { x with state := .queued, release := some { release k with wait := w } })
      (secured 30 (at_ 9000 up))
    let onRail : WaitSet := ⟨false, false, false, true⟩
    let settling := withDoor 31 (fun x => { x with settleEnds := some 9001 }) (waiting .passage onRail)
    let k := up.railOf 31
    let exit4 := withDoor 4 (fun x => { x with state := .queued, release := some (release .egress) }) (waiting .egress WaitSet.empty)
    let rail (n : Nat) (d : DoorId) (s : State) := s.setRail k ⟨[8000, 8000, 8000, 8000], List.replicate n d, []⟩
    let two := (waiting .passage onRail).setRail k ⟨[], [31, 4], [5]⟩
    (at_ 9001 settling).reached (settling.door 31).settleEnds = true
    ∧ (settling.door 31).state = .queued ∧ (settling.door 31).release = some { release .passage with wait := onRail }
    ∧ (otherReasons settling 31 .passage).other = true ∧ (otherReasons (waiting .passage onRail) 31 .passage).other = false
    ∧ ((up.setUnderSweep 15 true).underSweep 15) = true ∧ up.inEvacuation 15 = false
    ∧ (withSupp 15 (fun x => { x with state := .soak }) up).inEvacuation 15 = true
    ∧ (otherReasons (waiting .passage WaitSet.empty) 31 .passage).other = false
    ∧ ((waiting .passage WaitSet.empty).rail k).queue = [] ∧ (waiting .passage WaitSet.empty).railHasRoom k = true
    ∧ (rail 7 4 (waiting .passage WaitSet.empty)).railHasRoom k = false ∧ ((rail 7 4 (waiting .passage WaitSet.empty)).rail k).queue.length < 8
    ∧ 8 ≤ ((rail 8 4 (waiting .passage WaitSet.empty)).rail k).queue.length
    ∧ (((rail 8 4 (waiting .egress WaitSet.empty)).rail k).queue.filter fun v => !(rail 8 4 (waiting .egress WaitSet.empty)).isEgress v).getLast? = some 4
    ∧ (∀ v ∈ ((rail 8 4 exit4).rail k).queue, (rail 8 4 exit4).isEgress v = true)
    ∧ ((waiting .egress WaitSet.empty).door 31).release = some (release .egress)
    ∧ (release .passage).queuedAt + 10000 ≤ (at_ 10000 up).now
    ∧ two.started = true ∧ two.railHasRoom k = true ∧ (two.rail k).queue = [31, 4] ∧ two.railOf 31 = k ∧ (31 : DoorId) ∉ [(4 : DoorId)]
    ∧ (31 : DoorId) ∉ (two.rail k).outside ∧ (two.rail k).outside = [5] ∧ [(4 : DoorId)].length < 8 := by decide +kernel

theorem test_witness_DoorTimersExpire :
    let held (st : DoorState) := withDoor 31
      (fun x => { x with state := st, boltTimer := some 0, heldOpen := some 0,
                         release := some { release .passage with window := some 0 } }) up
    let s := held .withdrawing
    s.reached (s.door 31).boltTimer = true ∧ (s.door 31).state = .withdrawing ∧ ((held .throwing).door 31).state = .throwing
    ∧ (held .unlocked).reached ((held .unlocked).windowDeadline 31) = true ∧ ((held .unlocked).door 31).state = .unlocked
    ∧ ((held .unlocked).door 31).release = some { release .passage with window := some 0 }
    ∧ (held .opened).reached ((held .opened).door 31).heldOpen = true ∧ ((held .opened).door 31).state = .opened
    ∧ s.alarms.queue.length < 32 := by
  decide +kernel

theorem test_witness_HoursTimersExpire :
    let s : State := { up with hours.clockValid := true, hours.clock := 60 }
    s.hours.clockValid = true ∧ s.hours.clock % 60 = 0 ∧ (up.setWarning 15 (some 0)).warning 15 = some 0
    ∧ 0 ≤ (up.setWarning 15 (some 0)).uptime
    ∧ ((withZone 15 (fun x => { x with pairing := some ⟨7, 30, 0⟩ }) up).zone 15).pairing = some ⟨7, 30, 0⟩ := by decide +kernel

theorem test_witness_DeadlineExpiresAfterWarning :
    let e := { entry 95 15 7 with deadline := some 120 }
    let s : State := { up with pool := [e] }
    deadlineEntry (at_ 120000 s) 95 0 = some (e, 7) ∧ deadlineEntry s 95 120 = some (e, 7) ∧ deadlineEntry s 95 0 = none
    ∧ s.alarms.queue.length < 32 ∧ s.hours.state = .afterHours ∧ s.warning 15 = none := by decide +kernel

theorem test_witness_SuppressionDeadlinesAct :
    let a := withSupp 15 (fun x => { x with state := .preDischarge }) up
    let b := withSupp 15 (fun x => { x with state := .releasing, deadline := some 0 }) up
    let c := withSupp 15 (fun x => { x with state := .soak, deadline := some 0 }) up
    (a.suppRec 15).state = .preDischarge ∧ (a.suppRec 15).countdown = 0 ∧ (b.suppRec 15).state = .releasing
    ∧ b.reached (b.suppRec 15).deadline = true ∧ b.alarms.queue.length < 32
    ∧ (c.suppRec 15).state = .soak ∧ (c.suppRec 15).deadline = some 0 ∧ 0 ≤ c.now ∧ c.work.due = [] := by decide +kernel

theorem test_witness_ForceWindowOpensAndExpires :
    let s : State := { up with lines.chordDeadline := some 0 }
    let t : State := { up with supp.window := ⟨some 0, none, none⟩ }
    s.started = true ∧ s.reached s.lines.chordDeadline = true ∧ t.reached t.supp.window.closesAt = true := by decide +kernel

/-- A zone out of service; one in service that meets no condition of a sweep; one that meets all but one, for each; one that can be swept, with no
sweep-all list and with one that begins with it. -/
theorem test_witness_IntervalTakesThePointer :
    let out : State := { up with sweep.timer := some 0 }
    let served := withZone 0 (fun x => { x with inService := true }) out
    let ready := withSlot 0 0 (fun x => { x with online := .online }) (withSlot 0 1 (fun x => { x with online := .online })
      (secured 0 (secured 1 served)))
    let free (s : State) : Bool := s.sweep.inProgress.isNone && (s.sweep.allList.isNone || s.sweep.allList.bind (·.head?) == some 0)
    let fit (s : State) : Bool := canSweep 0 s && free s
    out.reached out.sweep.timer = true ∧ out.sweep.pointer = 0 ∧ (out.zone 0).inService = false ∧ (served.zone 0).inService = true
    ∧ served.excludedFlag 0 = false ∧ served.sweep.inProgress.map (·.zone) ≠ some 0 ∧ fit served = false ∧ fit ready = true
    ∧ fit { ready with sweep.allList := some [0, 15] } = true ∧ fit { ready with sweep.allList := some [15] } = false
    ∧ fit (sweeping none none ready) = false
    ∧ fit (withSlot 0 1 (fun x => { x with online := .offline }) ready) = false ∧ fit (evacuated 0 ready) = false
    ∧ fit (withDoor 0 (fun x => { x with state := .queued }) ready) = false
    ∧ (sweeping none none ready).sweep.inProgress.map (·.zone) ≠ some 0
    ∧ 2 ≤ ((withZone 0 (fun x => { x with deferrals := 2 }) served).zone 0).deferrals ∧ served.alarms.queue.length < 32 := by decide +kernel

/-- The level of a line held for 20 ms: NORMAL, ACTIVE, SHORT and OPEN_CIRCUIT; each kind taken ACTIVE, armed and not, from a fault and not. -/
theorem test_witness_LinesFilterAndQualify :
    let l (n : LineId) (c : Level) := at_ 20 (withLine n (fun x => { x with candidate := c }) up)
    let armed (n : LineId) := withLine n (fun x => { x with armed := true }) (l n .active)
    let mended (n : LineId) := withLine n (fun x => { x with supervised := some .short }) (l n .active)
    (up.line 65).candidate ≠ .active ∧ (up.line 65).candidate = .normal ∧ ((l 65 .normal).line 65).supervised ≠ some .normal
    ∧ ((l 65 .normal).line 65).since + 20 ≤ (l 65 .normal).now
    ∧ ((l 63 .active).line 63).candidate = .active ∧ ((l 63 .active).line 63).supervised ≠ some .active
    ∧ ((l 63 .active).line 63).since + 20 ≤ (l 63 .active).now
    ∧ (lineKind 60).needsArming = true ∧ ((l 60 .active).line 60).armed = false ∧ ((armed 60).line 60).armed = true
    ∧ (lineKind 60).isKey = false ∧ lineKind 61 = .abort ∧ ((mended 61).line 61).supervised = some .short
    ∧ ((mended 61).line 61).supervised ≠ some .active ∧ lineZone 61 = some 15
    ∧ (lineKind 65).isKey = true ∧ ((armed 65).line 65).armed = true ∧ (armed 65).started = true
    ∧ ((l 61 .short).line 61).candidate = .short ∧ ((l 65 .openCircuit).line 65).candidate = .openCircuit
    ∧ ((l 61 .short).line 61).supervised ≠ some .short ∧ ((l 61 .short).line 61).since + 20 ≤ (l 61 .short).now
    ∧ (l 65 .short).alarms.queue.length < 32 := by decide +kernel

/-- A line of each kind at its hold deadline; a PRESSURE in RELEASING and elsewhere, a PULL in NORMAL, ALERT and elsewhere; the second key
with the first qualified, and the first. -/
theorem test_witness_LinesQualify :
    let s (n : LineId) := withLine n (fun x => { x with supervised := some .active, holdDeadline := some 0 }) up
    let soak := withSupp 15 (fun x => { x with state := .releasing }) (s 63)
    let alert := withSupp 15 (fun x => { x with state := .alert }) (s 60)
    let both := withLine 64 (fun x => { x with qualified := true }) (s 65)
    (s 63).started = true ∧ (s 63).reached ((s 63).line 63).holdDeadline = true ∧ ((s 63).line 63).supervised = some .active
    ∧ lineKind 63 = .pressure ∧ lineZone 63 = some 15 ∧ (soak.suppRec 15).state = .releasing
    ∧ ((s 63).suppRec 15).state ≠ .releasing ∧ (s 63).work.due.any (DueNotice.ofSuppression 15) = false
    ∧ lineKind 60 = .pull ∧ lineZone 60 = some 15 ∧ ((s 60).suppRec 15).state = .normal ∧ (alert.suppRec 15).state = .alert
    ∧ (soak.suppRec 15).state ≠ .normal ∧ (soak.suppRec 15).state ≠ .alert
    ∧ lineKind 62 = .panic ∧ lineZone 62 = some 15 ∧ (s 62).alarms.queue.length < 32
    ∧ lineKind 61 = .abort ∧ lineZone 61 = some 15
    ∧ (lineKind 65).isKey = true ∧ (both.line keyALine).qualified = true ∧ ((s 65).line keyALine).qualified = false
    ∧ both.lines.chordSpent = false ∧ both.lines.chordDeadline = none := by decide +kernel

theorem test_witness_SounderFollowsCadence : (up.output 0).pattern = .off := by decide +kernel

/-- A move R6 does not name; headcounts 0, 1, 254 and 255. -/
theorem test_witness_RosterClaimsKeepTheirBounds :
    let s (n : Nat) := withZone 15 (fun x => { x with headcount := n }) up
    allowedMove .admitted .inner = false ∧ ((s 254).zone 15).headcount < 255 ∧ ((s 255).zone 15).headcount = 255 ∧ 0 < ((s 1).zone 15).headcount
    ∧ ((s 0).zone 15).headcount = 0 := by decide +kernel

theorem test_witness_ParseOfPayload :
    Request.wf (.cacheLoad (List.replicate 20 ⟨1, 0, 0, 0, 0⟩)) = true ∧ Request.wf (.readZone 255) = true := by decide +kernel

/-- The three invariants hold of the state after reset, and a step from it answers a next state. -/
theorem test_witness_invariants :
    CountdownSafe State.reset ∧ OutputsSafe State.reset ∧ PoolNumbered State.reset ∧ step State.reset = .next (tick State.reset) := by
  refine ⟨fun z h => ?_, fun z => ⟨fun h => ?_, fun h => ?_⟩, List.nodup_nil, rfl⟩
  · revert z; decide +kernel
  · revert z; decide +kernel
  · revert z; decide +kernel

end Sys2Proof.Tests
end

section
/-! SUPPORT. After-hours operation: one millisecond of the time base (R82, R128), the evaluation of the hours state (R83, R86), the timers
of the hours unit (R90, R91, R97), and the statements they settle. -/
namespace Sys2Proof.Machine.AfterHours

/-! ### How a command answers -/

section
variable {c : Instr} {s : State}

/-- The own effect of an event whose occasion is present. -/
theorem endsWith_of_event {b : Bool} {f : State → State} (hc : exec c s = event b f s) (hb : b = true) : EndsWith c s (f s) :=
  hc.trans (event_of_occasion hb f s)

variable {p : PortId} {r : Request} {d : State → Decision}

/-- A request its port may send arrives at a READY port and is decided there (R184, R185). -/
theorem request_decided (hp : permitted p r = true) (hr : s.ready p = true) :
    request p r d s = .next (carryOut p r (arrive p r s) (d (arrive p r s))) := by
  rw [request_of_ready r d hr, takeRequest_permitted r d hp]

theorem takenWith_of_done {st : Status} {e : State} {payload : State → List Byte} (hc : exec c s = request p r d s)
    (hp : permitted p r = true) (hr : s.ready p = true) (hd : d (arrive p r s) = .done st e payload) :
    TakenWith c p r s e st (payload (finishRequest (arrive p r s) e)) := by
  rw [TakenWith, hc, request_decided hp hr, hd]
  rfl

theorem answeredOnly_of_refuse {st : Status} {payload : List Byte} (hc : exec c s = request p r d s)
    (hp : permitted p r = true) (hr : s.ready p = true) (hd : d (arrive p r s) = .refuse st payload) :
    AnsweredOnly c p r s st payload := by
  rw [AnsweredOnly, hc, request_decided hp hr, hd]
  rfl
end

/-! ### One millisecond (00 section 5, R82, R128) -/

section
variable (s : State)

theorem advanceTime_frame : SameBut [.now] s (advanceTime s) := now_frame s _

theorem advanceClock_hours : (advanceClock s).hours = { s.hours with
    clock := (if s.hours.clockValid && s.now % 1000 == 0 then (s.hours.clock + 1) % 604800 else s.hours.clock) } := by
  unfold advanceClock
  split <;> rfl

theorem advanceClock_frame : SameBut [.hours] s (advanceClock s) := by
  unfold advanceClock
  split
  · exact hours_frame s _
  · exact .refl _ _

theorem fallCountdown_eq (r : SuppRec) :
    fallCountdown r = { r with countdown := (if r.state = .preDischarge then r.countdown - 1 else r.countdown) } := by
  unfold fallCountdown
  split <;> rfl

theorem suppRec_advanceCountdowns (z : Zone) : (advanceCountdowns s).suppRec z = fallCountdown (s.suppRec z) :=
  nth_map fallCountdown s.supp.zones z

theorem advanceCountdowns_frame : SameBut [.supp] s (advanceCountdowns s) := supp_frame s _

/-- What a millisecond passing does, before the events that have come due are queued. -/
def advance : State := advanceCountdowns (advanceClock (advanceTime s))

theorem tick_eq : tick s = { advance s with pending := (advance s).pending ++ dueEvents (advance s) } := rfl

theorem advance_now : (advance s).now = (s.now + 1) % 281474976710656 :=
  (advanceCountdowns_frame _).now.trans (advanceClock_frame (advanceTime s)).now

theorem advance_hours : (advance s).hours = { s.hours with
    clock := (if s.hours.clockValid && (advance s).now % 1000 == 0 then (s.hours.clock + 1) % 604800 else s.hours.clock) } := by
  rw [advance_now]
  exact (advanceCountdowns_frame _).hours.trans (advanceClock_hours (advanceTime s))

theorem advance_frame : SameBut [.now, .hours, .supp] s (advance s) :=
  (((SameBut.refl _ s).push (advanceTime_frame s) (by decide)).push (advanceClock_frame _) (by decide)).push
    (advanceCountdowns_frame _) (by decide)

/-- Before the countdowns fall the suppression unit is as it was. -/
theorem supp_advanceClock : (advanceClock (advanceTime s)).supp = s.supp :=
  (advanceClock_frame _).supp.trans (advanceTime_frame s).supp

theorem advance_suppRec (z : Zone) : (advance s).suppRec z = { s.suppRec z with
    countdown := (if (s.suppRec z).state = .preDischarge then (s.suppRec z).countdown - 1 else (s.suppRec z).countdown) } := by
  rw [advance, suppRec_advanceCountdowns, suppRec_congr (supp_advanceClock s), fallCountdown_eq]

theorem advance_window : (advance s).supp.window = s.supp.window := by
  have h : (advance s).supp.window = (advanceClock (advanceTime s)).supp.window := rfl
  rw [h, supp_advanceClock]

theorem tick_frame : SameBut [.pending, .now, .hours, .supp] s (tick s) :=
  ((advance_frame s).mono (by decide)).push (keepPending_frame (tick s) (advance s)) (by decide)

variable {s}

/-- Emptying an empty queue changes nothing. -/
theorem queue_emptied (h : s.pending = []) : { s with pending := [] } = s := by rw [← h]

/-- From an empty queue a millisecond leaves the due events alone in it, as the state with an empty queue gives them. -/
theorem tick_pending (h : s.pending = []) : (tick s).pending = dueEvents { tick s with pending := [] } := by
  have ha : (advance s).pending = [] := (advance_frame s).pending.trans h
  calc (tick s).pending = (advance s).pending ++ dueEvents (advance s) := by rw [tick_eq]
    _ = dueEvents (advance s) := by rw [ha, List.nil_append]
    _ = dueEvents { advance s with pending := [] } := by rw [queue_emptied ha]

theorem step_of_empty (h : s.pending = []) : step s = .next (tick s) := by simp only [step, h]
end

/-! ### The hours unit but for its warning marks -/

/-- The week clock, its flag, the hours state and the schedule are the same; warning marks may differ. -/
def SameClock (s t : State) : Prop := t.hours = { s.hours with warnings := t.hours.warnings }

theorem SameClock.refl (s : State) : SameClock s s := rfl

theorem SameClock.trans {s t u : State} (h : SameClock s t) (k : SameClock t u) : SameClock s u := by
  rw [SameClock] at h k ⊢
  rw [k, h]

theorem SameClock.of_frame {l : List Part} {s t : State} (h : SameBut l s t) (hn : Part.hours ∉ l := by decide) : SameClock s t := by
  rw [SameClock, h.hours hn]

theorem SameClock.push {l : List Part} {s t u : State} (h : SameClock s t) (k : SameBut l t u) (hn : Part.hours ∉ l := by decide) :
    SameClock s u := h.trans (.of_frame k hn)

theorem SameClock.foldl {α : Type} {f : State → α → State} (hf : ∀ s a, SameClock s (f s a)) (xs : List α) (s : State) :
    SameClock s (xs.foldl f s) := by
  induction xs generalizing s with
  | nil => exact .refl s
  | cons a xs ih => exact (hf s a).trans (ih _)

section
variable {s t : State} (h : SameClock s t)
include h

theorem SameClock.clock : t.hours.clock = s.hours.clock := by rw [h]
theorem SameClock.clockValid : t.hours.clockValid = s.hours.clockValid := by rw [h]
theorem SameClock.state : t.hours.state = s.hours.state := by rw [h]
end

section
variable (s : State)

theorem setWarning_sameClock (z : Zone) (w : Option Nat) : SameClock s (s.setWarning z w) := rfl

/-- The evaluation of a warning mark writes no more of the hours unit than the mark (R90). -/
theorem evalWarning_sameClock (z : Zone) (checkIn : Bool) : SameClock s (evalWarning z checkIn s) := by
  unfold evalWarning
  split
  · exact (setWarning_sameClock s z _).push (indicate_frame _ _ _ _)
  · simp only []
    split
    · exact setWarning_sameClock s z none
    · exact (setWarning_sameClock s z none).push (indicate_frame _ _ _ _)
  · exact .refl s

theorem enterAfterHoursZone_sameClock (z : Zone) : SameClock s (enterAfterHoursZone z s) := by
  unfold enterAfterHoursZone
  split
  · exact .refl s
  · exact (SameClock.of_frame (amendEntries_frame s z _)).trans (evalWarning_sameClock _ z false)

theorem enterDayHoursZone_sameClock (z : Zone) : SameClock s (enterDayHoursZone z s) :=
  ((SameClock.of_frame (amendEntries_frame s z _)).push (clearPairing_frame _ z .pairCleared true)).trans
    (evalWarning_sameClock _ z false)

/-! ### The evaluation of the hours state (R86) -/

/-- A transition leaves of the hours unit the state it takes, and its clock and schedule as they were (R86 to R88). -/
theorem takeHours_sameClock (h : HoursState) : SameClock { s with hours.state := h } (takeHours h s) := by
  unfold takeHours
  cases h with
  | dayHours => exact (SameClock.foldl (fun t z => enterDayHoursZone_sameClock t z) allZones _).push (endAlarms_frame _ _)
  | afterHours => exact SameClock.foldl (fun t z => enterAfterHoursZone_sameClock t z) allZones _

/-- An evaluation leaves the state the clock and the schedule give (R86). -/
theorem evaluateHours_sameClock (c : HoursCause) :
    SameClock { s with hours.state := hoursNow s } (evaluateHours c s) := by
  unfold evaluateHours
  simp only []
  split
  · rename_i h
    rw [SameClock, h]
  · exact (takeHours_sameClock s _).push (notify_frame _ _ _ _ _)

variable {s}

theorem hoursNow_eq_dayHours (hv : s.hours.clockValid = true) :
    hoursNow s = .dayHours ↔ ∃ w ∈ s.hours.schedule, w.holds s.hours.clock = true := by
  rw [hoursNow, hv, Bool.true_and, ← List.any_eq_true]
  split
  · exact iff_of_true rfl ‹_›
  · exact iff_of_false nofun ‹_›

/-- With a valid clock an evaluation leaves DAY_HOURS exactly when a window holds the clock (R86). -/
theorem evaluateHours_dayHours (c : HoursCause) (hv : s.hours.clockValid = true) :
    (evaluateHours c s).hours.state = .dayHours ↔ ∃ w ∈ s.hours.schedule, w.holds s.hours.clock = true := by
  rw [(evaluateHours_sameClock s c).state]
  exact hoursNow_eq_dayHours hv

theorem evaluateHours_clock (c : HoursCause) : (evaluateHours c s).hours.clock = s.hours.clock :=
  (evaluateHours_sameClock s c).clock

/-! ### SET_CLOCK (R83) -/

/-- SET_CLOCK belongs to the access port (R185). -/
theorem permitted_setClock (v : Word) : permitted .access (.setClock v) = true := by
  simp [permitted, Request.owner, Request.code]

variable (s) (v : Nat)

theorem setClock_clock : (setClock v s).hours.clock = v := evaluateHours_clock _

theorem setClock_clockValid : (setClock v s).hours.clockValid = true := (evaluateHours_sameClock _ _).clockValid

theorem setClock_dayHours : (setClock v s).hours.state = .dayHours ↔ ∃ w ∈ s.hours.schedule, w.holds v = true :=
  evaluateHours_dayHours (s := { s with hours.clock := v, hours.clockValid := true }) .setClock rfl

theorem setClock_frame : SameBut [.hours, .pool, .zones, .passage, .alarms, .loops, .ports] s (setClock v s) :=
  ((SameBut.refl _ s).push (hours_frame s _) (by decide)).push (evaluateHours_frame _ _) (by decide)

variable {s}

theorem decideSetClock_inside {v : Word} (h : v.toNat ≤ 604799) :
    decideSetClock v s = .done .ok (setClock v.toNat s) fun t => byte1 t.hours.state.code :=
  if_pos (Nat.lt_succ_of_le h)

theorem decideSetClock_above {v : Word} (h : 604799 < v.toNat) : decideSetClock v s = .refuse .badArgument [] :=
  if_neg (Nat.not_lt.2 h)

theorem exec_setClock (v : Word) (s : State) : exec (.setClock .access v) s = request .access (.setClock v) (decideSetClock v) s := rfl

/-- SET_CLOCK within the clock's range is taken, and answered with the hours state its step leaves (R83). -/
theorem takenWith_setClock {v : Word} (hr : s.ready .access = true) (hv : v.toNat ≤ 604799) :
    TakenWith (.setClock .access v) .access (.setClock v) s (setClock v.toNat (arrive .access (.setClock v) s)) .ok
      (byte1 (finishRequest (arrive .access (.setClock v) s) (setClock v.toNat (arrive .access (.setClock v) s))).hours.state.code) :=
  takenWith_of_done (payload := fun t => byte1 t.hours.state.code) (exec_setClock v s) (permitted_setClock v) hr
    (decideSetClock_inside hv)

/-- SET_CLOCK above the clock's range is refused (R83). -/
theorem answeredOnly_setClock {v : Word} (hr : s.ready .access = true) (hv : 604799 < v.toNat) :
    AnsweredOnly (.setClock .access v) .access (.setClock v) s .badArgument [] :=
  answeredOnly_of_refuse (exec_setClock v s) (permitted_setClock v) hr (decideSetClock_above hv)
end

/-! ### The warning mark's re-sending and the pairing record's end (R90, R97) -/

section
variable {s : State} {z : Zone}

theorem resendDue_of_warning {t : Nat} (h : s.warning z = some t) (ht : t ≤ s.uptime) : resendDue s z = true := by
  simpa only [resendDue, h, decide_eq_true_eq] using ht

theorem warning_indicate (y : Zone) (x : Side) (p : Pattern) : (s.indicate y x p).warning z = s.warning z :=
  warning_congr (indicate_frame s y x p).hours z

theorem warning_resendWarning {t : Nat} (h : s.warning z = some t) : (resendWarning z s).warning z = some (t + 60) := by
  rw [resendWarning, warning_indicate, warning_setWarning, h]
  rfl

theorem resendWarning_frame (z : Zone) (s : State) : SameBut [.hours, .loops] s (resendWarning z s) :=
  ((SameBut.refl _ s).push (setWarning_frame s _ _) (by decide)).push (indicate_frame _ _ _ _) (by decide)

theorem zone_dropPairing : (dropPairing z s).zone z = { s.zone z with pairing := none } := zone_setZone s z _

theorem held_dropPairing : ((dropPairing z s).zonePassage z).held = none := by rw [dropPairing, zonePassage_setZonePassage]

/-- To the end of a pairing record the hours unit adds what the first badge is told and the reader sent, no more (R97). -/
theorem clearPairing_after_drop {p : Pairing} (h : (s.zone z).pairing = some p) (c : PassageReason) (b : Bool) :
    SameBut [.loops, .ports] (dropPairing z s) (clearPairing z c b s) := by
  have told : SameBut [.loops, .ports] (dropPairing z s) (noticePassage p.door p.badge .none .denied c none [] none (dropPairing z s)) :=
    (noticePassage_frame _ _ _ _ _ _ _ _ _).mono (by decide)
  simp only [clearPairing, h]
  split
  · exact told.push (indicate_frame _ _ _ _) (by decide)
  · exact told

theorem zone_clearPairing {p : Pairing} (h : (s.zone z).pairing = some p) (c : PassageReason) (b : Bool) :
    (clearPairing z c b s).zone z = { s.zone z with pairing := none } :=
  (zone_congr (clearPairing_after_drop h c b).zones z).trans zone_dropPairing

theorem held_clearPairing {p : Pairing} (h : (s.zone z).pairing = some p) (c : PassageReason) (b : Bool) :
    ((clearPairing z c b s).zonePassage z).held = none := by
  rw [zonePassage_congr (clearPairing_after_drop h c b).passage]
  exact held_dropPairing

theorem pairing_reached {p : Pairing} (h : (s.zone z).pairing = some p) (hp : p.deadline ≤ s.now) :
    s.reached ((s.zone z).pairing.map (·.deadline)) = true := by
  simpa only [h, Option.map_some, State.reached, decide_eq_true_eq] using hp
end

/-! ### Lone-worker deadlines and their warning (R90, R91) -/

section
variable {s : State} {n : EntryNo} {lead : Nat} {e : Entry} {b : Badge}

/-- What a deadline within the lead says of its entry. -/
theorem deadlineEntry_eq_some (h : deadlineEntry s n lead = some (e, b)) :
    s.entryAt n = some e ∧ e.badge = some b ∧ ∃ t, e.deadline = some t ∧ t ≤ s.uptime + lead := by
  unfold deadlineEntry at h
  split at h
  · rename_i x hx
    split at h
    · rename_i c t hc ht
      split at h
      · rename_i hle
        cases h
        exact ⟨hx, hc, t, ht, hle⟩
      · cases h
    · cases h
  · cases h

theorem entryAt_number (h : s.entryAt n = some e) : e.number = n := by
  simpa using List.find?_some h

theorem entryAt_mem_roster (h : s.entryAt n = some e) : e ∈ s.roster e.zone :=
  List.mem_filter.2 ⟨List.mem_of_find?_eq_some h, beq_self_eq_true _⟩

/-- The key of a raising with room in the queue is PRESENT after it (R102, R103). -/
theorem raiseAlarm_present (kind : AlarmKind) (zone : Option Zone) (subject : Subject) (hl : s.alarms.queue.length < 32) :
    (raiseAlarm kind zone subject s).alarmPresent kind zone subject = true := by
  rw [State.alarmPresent, List.any_eq_true]
  cases hf : s.alarms.queue.find? fun x => x.hasKey kind zone subject with
  | some r =>
    have hk : r.hasKey kind zone subject = true := by simpa using List.find?_some hf
    refine ⟨reraised s.uptime r, ?_, ?_⟩
    · obtain ⟨hq, -⟩ := raiseAlarm_found hf
      rw [hq]
      exact List.mem_map.2 ⟨r, List.mem_of_find?_eq_some hf, if_pos hk⟩
    · simpa [reraised, AlarmRec.hasKey] using hk
  | none =>
    refine ⟨newAlarm s kind zone subject, ?_, by simp [newAlarm, AlarmRec.hasKey]⟩
    rw [raiseAlarm_room hf hl, makeAlarm_queue]
    obtain ⟨xs, ys, -, hq, -⟩ := insertAlarm_placed (newAlarm s kind zone subject) s.alarms.queue
    simp [hq]

/-- The entry whose deadline expired carries none; no other entry of the zone is amended (R91). -/
def withoutDeadline (n : EntryNo) (x : Entry) : Entry := if x.number = n then { x with deadline := none } else x

theorem badge_withoutDeadline (n : EntryNo) (x : Entry) : (withoutDeadline n x).badge = x.badge := by
  unfold withoutDeadline
  split <;> rfl

theorem deadline_withoutDeadline {x : Entry} (h : (withoutDeadline n x).number = n) : (withoutDeadline n x).deadline = none := by
  unfold withoutDeadline at h ⊢
  split
  · rfl
  · rename_i hne
    rw [if_neg hne] at h
    exact absurd h hne

theorem deadlineExpires_eq (e : Entry) (b : Badge) (s : State) :
    deadlineExpires e b s = evalWarning e.zone false
      (raiseAlarm .loneWorkerOverdue (some e.zone) (.badge b) (amendEntries e.zone (withoutDeadline e.number) s)) := rfl

theorem deadlineExpires_pool (e : Entry) (b : Badge) (s : State) : (deadlineExpires e b s).pool
    = s.pool.map fun x => if x.zone = e.zone then withoutDeadline e.number x else x := by
  rw [deadlineExpires_eq, (evalWarning_frame _ _ _).pool, (raiseAlarm_frame _ _ _ _).pool, pool_amendEntries]

/-- An entry of the number and zone of the one that expired has no deadline (R91). -/
theorem deadlineExpires_deadline {x : Entry} (hx : x ∈ (deadlineExpires e b s).pool) (hn : x.number = e.number)
    (hz : x.zone = e.zone) : x.deadline = none := by
  rw [deadlineExpires_pool] at hx
  obtain ⟨y, -, rfl⟩ := List.mem_map.1 hx
  by_cases hy : y.zone = e.zone
  · rw [if_pos hy] at hn ⊢
    exact deadline_withoutDeadline hn
  · rw [if_neg hy] at hz
    exact absurd hz hy

theorem deadlineExpires_badges (e : Entry) (b : Badge) (s : State) :
    (deadlineExpires e b s).pool.map (·.badge) = s.pool.map (·.badge) := by
  rw [deadlineExpires_pool, List.map_map]
  refine List.map_congr_left fun x _ => ?_
  simp only [Function.comp_apply]
  split
  · exact badge_withoutDeadline _ x
  · rfl

theorem deadlineExpires_present (e : Entry) (b : Badge) (hl : s.alarms.queue.length < 32) :
    (deadlineExpires e b s).alarmPresent .loneWorkerOverdue (some e.zone) (.badge b) = true := by
  have ha : (amendEntries e.zone (withoutDeadline e.number) s).alarms = s.alarms := (amendEntries_frame s _ _).alarms
  rw [deadlineExpires_eq, State.alarmPresent, (evalWarning_frame _ _ _).alarms]
  exact raiseAlarm_present _ _ _ (by rw [ha]; exact hl)

theorem deadlineExpires_frame (e : Entry) (b : Badge) (s : State) :
    SameBut [.pool, .zones, .hours, .alarms, .loops, .ports] s (deadlineExpires e b s) :=
  (((SameBut.refl _ s).push (amendEntries_frame s _ _) (by decide)).push (raiseAlarm_frame _ _ _ _) (by decide)).push
    (evalWarning_frame _ _ _) (by decide)

/-- An entry whose deadline lies within the warning lead makes its zone's mark due (R90). -/
theorem warningDue_of_lead (h : deadlineEntry s n 120 = some (e, b)) (ha : s.hours.state = .afterHours) :
    warningDue s e.zone = true := by
  obtain ⟨he, hb, t, ht, hle⟩ := deadlineEntry_eq_some h
  have hw : Entry.warns s.uptime e = true := by
    simp only [Entry.warns, Entry.badged, hb, ht, Option.isSome_some, Bool.true_and]
    exact decide_eq_true hle
  rw [warningDue, ha, beq_self_eq_true, Bool.true_and, List.any_eq_true]
  exact ⟨e, entryAt_mem_roster he, hw⟩

/-- A clear mark that is due is set, with its re-sending 60 s on (R90). -/
theorem warning_evalWarning_due {z : Zone} (hw : s.warning z = none) (hd : warningDue s z = true) (checkIn : Bool) :
    (evalWarning z checkIn s).warning z = some (s.uptime + 60) := by
  simp only [evalWarning, hw, hd]
  rw [warning_indicate, warning_setWarning]
  rfl
end

/-! ### The timers' commands -/

section
variable {s : State}

/-- MINUTE_BOUNDARY of a valid clock evaluates the hours state (R86). -/
theorem endsWith_minuteBoundary (hv : s.hours.clockValid = true) (hm : s.hours.clock % 60 = 0) :
    EndsWith .minuteBoundary s (evaluateHours .minute s) := by
  have hc : exec .minuteBoundary s = execMinuteBoundary s := rfl
  exact endsWith_of_event hc (by simp [hv, hm])

/-- WARN_CHECKIN_RESEND at its time (R90). -/
theorem endsWith_warnCheckinResend {z : Zone} (h : resendDue s z = true) :
    EndsWith (.warnCheckinResend z) s (resendWarning z s) := by
  have hc : exec (.warnCheckinResend z) s = execWarnCheckinResend z s := rfl
  exact endsWith_of_event hc h

/-- PAIR_EXPIRED at its time (R97). -/
theorem endsWith_pairExpired {z : Zone} (h : s.reached ((s.zone z).pairing.map (·.deadline)) = true) :
    EndsWith (.pairExpired z) s (clearPairing z .pairExpired true s) := by
  have hc : exec (.pairExpired z) s = execPairExpired z s := rfl
  exact endsWith_of_event hc h

/-- LONE_WORKER_DEADLINE_EXPIRY at an entry's deadline (R91). -/
theorem endsWith_deadlineExpiry {n : EntryNo} {e : Entry} {b : Badge} (h : deadlineEntry s n 0 = some (e, b)) :
    EndsWith (.loneWorkerDeadlineExpiry n) s (deadlineExpires e b s) := by
  have hc : exec (.loneWorkerDeadlineExpiry n) s = execLoneWorkerDeadlineExpiry n s := rfl
  rw [EndsWith, hc, execLoneWorkerDeadlineExpiry, event_of_occasion (Option.isSome_of_eq_some h)]
  simp only [h]

/-- WARNING_LEAD_REACHED within the lead of an entry's deadline (R90). -/
theorem endsWith_warningLead {n : EntryNo} {e : Entry} {b : Badge} (h : deadlineEntry s n 120 = some (e, b)) :
    EndsWith (.warningLeadReached n) s (evalWarning e.zone false s) := by
  obtain ⟨he, -⟩ := deadlineEntry_eq_some h
  have hc : exec (.warningLeadReached n) s = execWarningLeadReached n s := rfl
  rw [EndsWith, hc, execWarningLeadReached, Config.warningLeadS, event_of_occasion (Option.isSome_of_eq_some h)]
  simp only [he]
end

/-! ### The statements -/

/-- Settles O2: the tick's own equations, part by part. -/
theorem idleStepPassesOneMillisecond : Obligations.IdleStepPassesOneMillisecond := by
  unfold Obligations.IdleStepPassesOneMillisecond
  intro s h
  exact ⟨tick s, step_of_empty h, advance_now s, advance_hours s, advance_suppRec s, advance_window s, tick_pending h, tick_frame s⟩

/-- Settles O17: the decision by the clock's range, and the evaluation of R86 on the clock that was set. -/
theorem setClockSetsTheClock : Obligations.SetClockSetsTheClock := by
  unfold Obligations.SetClockSetsTheClock
  intro v s hr
  refine ⟨fun hv => answeredOnly_setClock hr hv, fun hv => ?_⟩
  have hframe : SameBut [.hours, .ports, .passage, .pool, .zones, .alarms, .loops] s
      (setClock v.toNat (arrive .access (.setClock v) s)) :=
    ((arrive_frame s _ _).mono (by decide)).push (setClock_frame _ _) (by decide)
  have hday := setClock_dayHours (arrive .access (.setClock v) s) v.toNat
  rw [hours_arrive] at hday
  exact ⟨_, takenWith_setClock hr hv, setClock_clock _ _, setClock_clockValid _ _, hday, hframe⟩

/-- Settles O48: each of the three timers is an event whose occasion is the hypothesis. -/
theorem hoursTimersExpire : Obligations.HoursTimersExpire := by
  unfold Obligations.HoursTimersExpire
  intro s
  refine ⟨fun hv hm => ?minute, fun z t hw ht => ?resend, fun z p hp hd => ?pair⟩
  case minute =>
    exact ⟨evaluateHours .minute s, endsWith_minuteBoundary hv hm, evaluateHours_dayHours _ hv, evaluateHours_clock _,
      (evaluateHours_frame s _).mono (by decide)⟩
  case resend =>
    exact ⟨resendWarning z s, endsWith_warnCheckinResend (resendDue_of_warning hw ht), warning_resendWarning hw,
      resendWarning_frame z s⟩
  case pair =>
    exact ⟨clearPairing z .pairExpired true s, endsWith_pairExpired (pairing_reached hp hd), zone_clearPairing hp _ _,
      held_clearPairing hp _ _, clearPairing_frame s z _ _⟩

/-- Settles O49: the deadline's expiry as an amend, a raising and an evaluation of the mark; the lead as an evaluation of a due mark. -/
theorem deadlineExpiresAfterWarning : Obligations.DeadlineExpiresAfterWarning := by
  unfold Obligations.DeadlineExpiresAfterWarning
  intro n e0 b s
  refine ⟨fun h => ?expiry, fun h ha hw => ?lead⟩
  case expiry =>
    obtain ⟨he, -⟩ := deadlineEntry_eq_some h
    exact ⟨deadlineExpires e0 b s, endsWith_deadlineExpiry h,
      fun x hx hn hz => deadlineExpires_deadline hx (hn.trans (entryAt_number he).symm) hz, deadlineExpires_badges e0 b s,
      deadlineExpires_present e0 b, deadlineExpires_frame e0 b s⟩
  case lead =>
    exact ⟨evalWarning e0.zone false s, endsWith_warningLead h, warning_evalWarning_due hw (warningDue_of_lead h ha) false,
      evalWarning_frame s _ _⟩

end Sys2Proof.Machine.AfterHours
end

section
/-! SUPPORT. Suppression release: the two safety rules that every step keeps (R128, R145), the requests of the suppression port and the
force request (R121 to R144), the timers of the suppression unit and the sounder (R130 to R145, R181), the end of a port's transactions and
its reset (R184, R195, R196), and the statements they settle. -/
namespace Sys2Proof.Machine.SuppressionRelease
open AfterHours

/-! ### The safety rules at a reset and through a step (R128, R145) -/

section
variable (q : List Instr) (x : Store) (l : Vector Level 66) (z : Zone)

theorem suppRec_afterReset : (State.afterReset q x l).suppRec z = SuppRec.reset := nth_replicate _ z

theorem output_afterReset : (State.afterReset q x l).output z = Output.reset := nth_replicate _ z

theorem afterReset_countdownSafe : CountdownSafe (State.afterReset q x l) := fun z h => by
  rw [suppRec_afterReset] at h
  cases h

theorem afterReset_outputsSafe : OutputsSafe (State.afterReset q x l) := fun z => by
  rw [output_afterReset]
  exact ⟨nofun, nofun⟩
end

section
variable (s : State) (z : Zone)

/-- A millisecond lowers a countdown and writes no more of a suppression record. -/
theorem suppRec_tick : (tick s).suppRec z = { s.suppRec z with countdown := ((tick s).suppRec z).countdown } := by
  have h : (tick s).suppRec z = (advance s).suppRec z := rfl
  rw [h, advance_suppRec]

theorem state_tick : ((tick s).suppRec z).state = (s.suppRec z).state := by rw [suppRec_tick]

theorem holds_tick : ((tick s).suppRec z).holds = (s.suppRec z).holds := by rw [suppRec_tick]
end

theorem tick_countdownSafe {s : State} (h : CountdownSafe s) : CountdownSafe (tick s) := fun z => by
  have hf := tick_frame s
  rw [state_tick, holds_tick, certainty_congr hf.zones hf.pool, distress_congr hf.alarms, abortActive_congr hf.lines]
  exact h z

theorem tick_outputsSafe {s : State} (h : OutputsSafe s) : OutputsSafe (tick s) := fun z => by
  rw [state_tick, output_congr (tick_frame s).lines]
  exact h z

/-- A property that holds right after every reset, and that a millisecond, the queue of commands and the end of every other command leave,
is kept by every step. -/
theorem step_keeps {P : State → Prop} (reset : ∀ q x l, P (State.afterReset q x l)) (millisecond : ∀ s, P s → P (tick s))
    (queue : ∀ s q, P s → P { s with pending := q }) (ends : ∀ s t, Ends s t → P s → P t) {s t : State} (h : P s)
    (hs : step s = .next t) : P t := by
  unfold step at hs
  split at hs
  · rename_i c rest _
    by_cases hc : c = .reset
    · subst hc
      cases hs
      exact reset _ _ _
    · obtain ⟨u, hu, he⟩ := exec_ends c { s with pending := rest } hc
      rw [hu] at hs
      cases hs
      exact ends _ _ he (queue s rest h)
  · cases hs
    exact millisecond s h

/-! ### One record written -/

/-- The suppression unit's state is as it was but for one zone's record. -/
def WritesRecord (z : Zone) (x : SuppRec) (s t : State) : Prop := t.supp = (s.setSuppRec z x).supp

section
variable {z : Zone} {x : SuppRec} {s t u : State} (h : WritesRecord z x s t)
include h

theorem WritesRecord.own : t.suppRec z = x := (suppRec_congr h z).trans (suppRec_setSuppRec s z x)

theorem WritesRecord.others (y : Zone) (hy : y ≠ z) : t.suppRec y = s.suppRec y :=
  (suppRec_congr h y).trans (suppRec_setSuppRec_ne s x hy)

theorem WritesRecord.window : t.supp.window = s.supp.window := by
  have k : t.supp = (s.setSuppRec z x).supp := h
  rw [k]
  rfl

theorem WritesRecord.push {l : List Part} (k : SameBut l t u) (hn : Part.supp ∉ l := by decide) : WritesRecord z x s u :=
  (k.supp hn).trans h

/-- Written twice, a record holds what was written last. -/
theorem WritesRecord.again {y : SuppRec} (k : WritesRecord z y t u) : WritesRecord z y s u := by
  unfold WritesRecord at h k ⊢
  rw [k, State.setSuppRec, h]
  simp [State.setSuppRec, put]

/-- Before the write the suppression unit was as in another state. -/
theorem WritesRecord.after (k : s.supp = u.supp) : WritesRecord z x u t := by
  unfold WritesRecord at h ⊢
  rw [h, State.setSuppRec, State.setSuppRec, k]
end

section
variable (s : State) (z : Zone) (x : SuppRec)

theorem setSuppRec_writes : WritesRecord z x s (s.setSuppRec z x) := rfl

theorem setSuppState_writes : WritesRecord z x s (setSuppState z x s) := by
  unfold setSuppState
  simp only []
  split
  · rfl
  · split <;> rfl

variable {s z x}

/-- A zone that leaves evacuation hands it on (R125). -/
theorem evacuationLeft_mem (hs : s.inEvacuation z = true) (hx : x.state.evacuation = false) :
    HandOn.evacuationLeft z ∈ (setSuppState z x s).work.handOns := by
  simp [setSuppState, hs, hx, State.handOn]
end

theorem supp_suppNotice (s : State) (z : Zone) (c : SuppCause) : (suppNotice z c s).supp = s.supp := (suppNotice_frame s z c).supp

theorem due_suppNotice (s : State) (z : Zone) (c : SuppCause) : (suppNotice z c s).work.due
    = s.work.due ++ (if s.work.due.any (DueNotice.ofSuppression z) then [] else [.suppression z c]) := by
  unfold suppNotice
  split <;> simp [State.dueNotice]

theorem cfg_suppNotice (s : State) (z y : Zone) (c : SuppCause) : (suppNotice z c s).cfg y = s.cfg y :=
  cfg_congr (suppNotice_frame s z c).store y

/-- A record whose state may change is written after its notice is asked for. -/
theorem noticed_writes (s : State) (z : Zone) (c : SuppCause) (x : SuppRec) :
    WritesRecord z x s (setSuppState z x (suppNotice z c s)) := (setSuppState_writes _ z x).after (supp_suppNotice s z c)

theorem noticed_frame (s : State) (z : Zone) (c : SuppCause) (x : SuppRec) :
    SameBut [.supp] s (setSuppState z x (suppNotice z c s)) :=
  ((SameBut.refl _ s).push (suppNotice_frame s z c) (by decide)).push (setSuppState_frame _ z x) (by decide)

/-- A record is written before its notice is asked for. -/
theorem written_writes (s : State) (z : Zone) (c : SuppCause) (x : SuppRec) :
    WritesRecord z x s (suppNotice z c (s.setSuppRec z x)) := (setSuppRec_writes s z x).push (suppNotice_frame _ z c)

theorem written_frame (s : State) (z : Zone) (c : SuppCause) (x : SuppRec) :
    SameBut [.supp] s (suppNotice z c (s.setSuppRec z x)) :=
  (setSuppRec_frame s z x).push (suppNotice_frame _ z c) (by decide)

/-! ### How a request of a zone is taken -/

/-- The request arrives and its owner's decision is carried out. -/
def Reaches (c : Instr) (p : PortId) (r : Request) (d : State → Decision) (s : State) : Prop :=
  exec c s = .next (carryOut p r (arrive p r s) (d (arrive p r s)))

section
variable {c : Instr} {p : PortId} {r : Request} {s : State}

/-- A request of a zone at its READY port reaches the zone's decision (R184, R185). -/
theorem reaches_of_zone {b : Byte} {z : Zone} {d : Zone → State → Decision} (hc : exec c s = request p r (ofZone b d) s)
    (hp : permitted p r = true) (hr : s.ready p = true) (hz : zoneArg b = some z) : Reaches c p r (d z) s := by
  have hd : ofZone b d (arrive p r s) = d z (arrive p r s) := by simp only [ofZone, hz]
  rw [Reaches, hc, request_decided hp hr, hd]

/-- The codes 30h to 3Fh are the suppression port's requests (R185). -/
theorem suppression_reaches {b : Byte} {z : Zone} {d : Zone → State → Decision}
    (hc : exec c s = request .suppression r (ofZone b d) s) (ho : (Request.code r).toNat / 16 = 3)
    (hr : s.ready .suppression = true) (hz : zoneArg b = some z) : Reaches c .suppression r (d z) s :=
  reaches_of_zone hc (by simp [permitted, Request.owner, ho]) hr hz

variable {d : State → Decision} {st : Status} {payload : List Byte} (h : Reaches c p r d s)
include h

theorem Reaches.refused (hd : d (arrive p r s) = .refuse st payload) : AnsweredOnly c p r s st payload := by
  rw [AnsweredOnly, h, hd]
  rfl

theorem Reaches.read (hd : d (arrive p r s) = .read payload) : AnsweredOnly c p r s .ok payload := by
  rw [AnsweredOnly, h, hd]
  rfl

theorem Reaches.taken {e : State} {f : State → List Byte} (hd : d (arrive p r s) = .done st e f) :
    TakenWith c p r s e st (f (finishRequest (arrive p r s) e)) := by
  rw [TakenWith, h, hd]
  rfl
end

section
variable (s : State) (p : PortId) (r : Request) (z : Zone)

theorem suppRec_arrive : (arrive p r s).suppRec z = s.suppRec z := suppRec_congr (supp_arrive s p r) z

theorem cfg_arrive : (arrive p r s).cfg z = s.cfg z := cfg_congr (store_arrive s p r) z

theorem bothMoving_arrive : (arrive p r s).bothMoving z = s.bothMoving z := by
  simp only [State.bothMoving, door_congr (doors_arrive s p r)]

theorem doorAtRest_arrive (d : DoorId) : doorAtRest (arrive p r s) d = doorAtRest s d := by
  simp only [doorAtRest, door_congr (doors_arrive s p r)]

theorem halfNames_arrive : (arrive p r s).halfNames z = s.halfNames z := by simp only [State.halfNames, supp_arrive]

/-- An effect on parts of the list and the ports, after a request arrived at a port that the passage unit does not hear. -/
theorem arrive_push {l m : List Part} {e : State} (h : SameBut l (arrive p r s) e) (hl : l ⊆ m) (hm : [Part.ports] ⊆ m)
    (hp : p ≠ .access) : SameBut m s e := ((arrive_frame_ports s p r hp).mono hm).push h hl
end

/-! ### The detection set (R121, R122, R124) -/

section
variable (s : State) (z : Zone) (d : Byte)

/-- The record with a detector added and a NORMAL zone in ALERT (R121). -/
def withDetector (r : SuppRec) (d : Byte) : SuppRec :=
  { r with detectors := r.detectors ++ [d], state := (if r.state = .normal then .alert else r.state) }

/-- The confirmed record: the whole countdown, PREDISCHARGE without a hold and HELD with one (R124). -/
def confirmedRec (r : SuppRec) (cfg : ZoneCfg) : SuppRec :=
  { r with confirmed := true, countdown := cfg.preDischarge * 1000, state := (if r.holds.any then .held else .preDischarge) }

/-- The record with a detector removed and an ALERT zone of an empty set in NORMAL (R121). -/
def withoutDetector (r : SuppRec) (d : Byte) : SuppRec :=
  { r with detectors := r.detectors.filter (· != d),
           state := (if r.state = .alert ∧ r.detectors.filter (· != d) = [] then .normal else r.state) }

theorem confirmZone_writes : WritesRecord z (confirmedRec (s.suppRec z) (s.cfg z)) s (confirmZone z s) := setSuppState_writes _ _ _

variable {s z}

/-- The added detector reaches the coincidence count of a zone that can be confirmed (R124). -/
def Confirms (s : State) (z : Zone) : Prop :=
  ((s.suppRec z).state = .normal ∨ (s.suppRec z).state = .alert) ∧ (s.cfg z).coincidence ≤ (s.suppRec z).detectors.length + 1

theorem addDetector_confirms (h : Confirms s z) :
    WritesRecord z (confirmedRec (withDetector (s.suppRec z) d) (s.cfg z)) s (addDetector z d s) := by
  have hset := written_writes s z .confirmed (withDetector (s.suppRec z) d)
  have hconf := confirmZone_writes (suppNotice z .confirmed (s.setSuppRec z (withDetector (s.suppRec z) d))) z
  rw [hset.own, cfg_congr (written_frame s z _ _).store] at hconf
  have he : addDetector z d s = confirmZone z (suppNotice z .confirmed (s.setSuppRec z (withDetector (s.suppRec z) d))) :=
    if_pos (by simpa [Confirms] using h)
  rw [he]
  exact hset.again hconf

theorem addDetector_adds (h : ¬ Confirms s z) : WritesRecord z (withDetector (s.suppRec z) d) s (addDetector z d s) := by
  have he : addDetector z d s = suppNotice z .detect (s.setSuppRec z (withDetector (s.suppRec z) d)) :=
    if_neg (by simpa [Confirms] using h)
  rw [he]
  exact written_writes s z _ _

variable (s z)

theorem addDetector_frame : SameBut [.supp] s (addDetector z d s) := by
  unfold addDetector
  simp only []
  split
  · exact (written_frame s z _ _).push (confirmZone_frame _ z) (by decide)
  · exact written_frame s z _ _

theorem dropDetector_writes : WritesRecord z (withoutDetector (s.suppRec z) d) s (dropDetector z d s) := written_writes s z _ _

theorem dropDetector_frame : SameBut [.supp] s (dropDetector z d s) := written_frame s z _ _

variable {s z d}

theorem decideDetect_held (h : d ∈ (s.suppRec z).detectors) : decideDetect d z s = .read (detectReply z s) :=
  if_pos (by simpa using h)

theorem decideDetect_full (h : d ∉ (s.suppRec z).detectors) (hl : 8 ≤ (s.suppRec z).detectors.length) :
    decideDetect d z s = .refuse .badArgument [] := by
  simp [decideDetect, h, Config.detectionCap, hl]

theorem decideDetect_room (h : d ∉ (s.suppRec z).detectors) (hl : (s.suppRec z).detectors.length < 8) :
    decideDetect d z s = .done .ok (addDetector z d s) (detectReply z) := by
  simp [decideDetect, h, Config.detectionCap, Nat.not_le.2 hl]

theorem decideClearDetect_absent (h : d ∉ (s.suppRec z).detectors) : decideClearDetect d z s = .read (detectReply z s) :=
  if_neg (by simpa using h)

theorem decideClearDetect_held (h : d ∈ (s.suppRec z).detectors) :
    decideClearDetect d z s = .done .ok (dropDetector z d s) (detectReply z) := if_pos (by simpa using h)

theorem detectReply_arrive (p : PortId) (r : Request) : detectReply z (arrive p r s) = detectReply z s := by
  simp only [detectReply, stateReply, suppRec_arrive]

variable {b : Byte}

theorem detect_reaches (hr : s.ready .suppression = true) (hz : zoneArg b = some z) :
    Reaches (.detect .suppression b d) .suppression (.detect b d) (decideDetect d z) s :=
  suppression_reaches rfl (by simp [Request.code]) hr hz

theorem clearDetect_reaches (hr : s.ready .suppression = true) (hz : zoneArg b = some z) :
    Reaches (.clearDetect .suppression b d) .suppression (.clearDetect b d) (decideClearDetect d z) s :=
  suppression_reaches rfl (by simp [Request.code]) hr hz
end

/-! ### CANCEL, VENT and RESTORE (R135 to R137, R144) -/

theorem window_discardHalves (s : State) (z : Zone) : (discardHalves z s).supp.window
    = if s.halfNames z then ⟨s.supp.window.closesAt, none, none⟩ else s.supp.window := by
  unfold discardHalves
  split
  · rw [suppZones_noticeForce]
  · rfl

section
variable (s : State) (z : Zone)

/-- The record that CANCEL leaves (R137). -/
def cancelledRec (r : SuppRec) : SuppRec :=
  { r with confirmed := false, countdown := 0, pullSeen := false, state := (if r.detectors = [] then .normal else .alert) }

/-- The halves that name the zone are discarded as CANCEL takes it out of HELD (R144). -/
def halvesLeft : State := if (s.suppRec z).state = .held then discardHalves z s else s

theorem cancelZone_eq : cancelZone z s
    = setSuppState z (cancelledRec (s.suppRec z)) (suppNotice z .cancel (halvesLeft s z)) := rfl

theorem suppRec_halvesLeft (y : Zone) : (halvesLeft s z).suppRec y = s.suppRec y := by
  unfold halvesLeft
  split
  · exact suppRec_discardHalves s z y
  · rfl

theorem window_halvesLeft : (halvesLeft s z).supp.window
    = if (s.suppRec z).state = .held ∧ s.halfNames z = true then ⟨s.supp.window.closesAt, none, none⟩ else s.supp.window := by
  unfold halvesLeft
  split
  · rename_i h
    simp only [window_discardHalves, h, true_and]
  · rename_i h
    simp only [h, false_and, if_false]

theorem halvesLeft_frame : SameBut [.supp, .ports] s (halvesLeft s z) := by
  unfold halvesLeft
  split
  · exact discardHalves_frame s z
  · exact .refl _ s

theorem cancelZone_writes : WritesRecord z (cancelledRec (s.suppRec z)) (halvesLeft s z) (cancelZone z s) := noticed_writes _ z _ _

theorem cancelZone_frame : SameBut [.supp, .ports] s (cancelZone z s) :=
  (halvesLeft_frame s z).push (noticed_frame _ z _ _) (by decide)

variable {s z}

/-- The suppression states in which a zone can be cancelled (R137). -/
def Cancellable (s : State) (z : Zone) : Prop := (s.suppRec z).state = .preDischarge ∨ (s.suppRec z).state = .held

theorem cancelZone_leaves (h : Cancellable s z) : HandOn.evacuationLeft z ∈ (cancelZone z s).work.handOns := by
  rw [cancelZone_eq]
  refine evacuationLeft_mem ?_ ?_
  · rw [inEvacuation_congr (supp_suppNotice _ _ _), State.inEvacuation, suppRec_halvesLeft]
    rcases h with h | h <;> rw [h] <;> rfl
  · rw [cancelledRec]
    split <;> rfl

theorem decideCancel_wrong (h : ¬ Cancellable s z) : decideCancel z s = .refuse .wrongState [] :=
  if_pos (not_or.1 h)

theorem decideCancel_moving (h : Cancellable s z) (hm : s.bothMoving z = true) : decideCancel z s = .refuse .doorsMoving [] := by
  rw [decideCancel, if_neg fun k => h.elim k.1 k.2, if_pos hm]

theorem decideCancel_taken (h : Cancellable s z) (hm : s.bothMoving z = false) :
    decideCancel z s = .done .ok (cancelZone z s) (stateReply z) := by
  rw [decideCancel, if_neg fun k => h.elim k.1 k.2, if_neg (by simp [hm])]

variable (s z)

theorem ventZone_writes : WritesRecord z { s.suppRec z with state := .vent } s (ventZone z s) := noticed_writes s z _ _

theorem ventZone_frame : SameBut [.supp] s (ventZone z s) := noticed_frame s z _ _

variable {s z}

/-- The suppression states in which a zone can be vented (R135). -/
def Ventable (s : State) (z : Zone) : Prop :=
  (s.suppRec z).state = .releaseFault ∨ ((s.suppRec z).state = .soak ∧ (s.suppRec z).soakComplete = true)

theorem ventZone_leaves (h : Ventable s z) : HandOn.evacuationLeft z ∈ (ventZone z s).work.handOns := by
  refine evacuationLeft_mem ?_ rfl
  rw [inEvacuation_congr (supp_suppNotice _ _ _), State.inEvacuation]
  rcases h with h | ⟨h, -⟩ <;> rw [h] <;> rfl

theorem decideVent_wrong (h : ¬ Ventable s z) : decideVent z s = .refuse .wrongState [] := if_pos h

theorem decideVent_moving (h : Ventable s z) (hm : s.bothMoving z = true) : decideVent z s = .refuse .doorsMoving [] :=
  (if_neg (not_not_intro h)).trans (if_pos hm)

theorem decideVent_taken (h : Ventable s z) (hm : s.bothMoving z = false) :
    decideVent z s = .done .ok (ventZone z s) fun _ => [] :=
  (if_neg (not_not_intro h)).trans (if_neg (by simp [hm]))

/-- After an ending no record of its key is PRESENT (R108). -/
theorem endAlarm_absent (kind : AlarmKind) (zone : Option Zone) (subject : Subject) :
    (endAlarm kind zone subject s).alarmPresent kind zone subject = false := by
  rw [State.alarmPresent, List.any_eq_false]
  unfold endAlarm
  split
  · rw [(noticeChanged_frame _ _ _).alarms, touchAlarms_queue]
    intro r hr
    obtain ⟨x, -, rfl⟩ := List.mem_map.1 hr
    split
    · simp
    · rename_i hk
      simp [hk]
  · rename_i hf
    exact List.find?_eq_none.1 hf

variable (s z)

/-- The record that RESTORE leaves (R136). -/
def restoredRec (r : SuppRec) : SuppRec :=
  { r with state := .normal, detectors := [], confirmed := false, cause := none, soakComplete := false, pullSeen := false, countdown := 0 }

theorem restoreZone_writes : WritesRecord z (restoredRec (s.suppRec z)) s (restoreZone z s) :=
  (noticed_writes s z _ _).push (endAlarm_frame _ _ _ _)

theorem restoreZone_frame : SameBut [.supp, .alarms] s (restoreZone z s) :=
  ((noticed_frame s z _ _).mono (by decide)).push (endAlarm_frame _ _ _ _) (by decide)

variable {s z}

theorem decideRestore_wrong (h : (s.suppRec z).state ≠ .vent) : decideRestore z s = .refuse .wrongState [] := if_pos h

theorem decideRestore_taken (h : (s.suppRec z).state = .vent) (ho : doorAtRest s (outerDoor z) = true)
    (hi : doorAtRest s (innerDoor z) = true) : decideRestore z s = .done .ok (restoreZone z s) fun _ => [] := by
  simp [decideRestore, h, ho, hi]

theorem decideRestore_moving (h : (s.suppRec z).state = .vent)
    (hd : doorAtRest s (outerDoor z) = false ∨ doorAtRest s (innerDoor z) = false) :
    decideRestore z s = .refuse .doorsMoving [] := by
  rw [decideRestore, if_neg (not_not_intro h), if_neg (by rcases hd with hd | hd <;> simp [hd])]

variable {b : Byte}

theorem cancel_reaches (hr : s.ready .suppression = true) (hz : zoneArg b = some z) :
    Reaches (.cancel .suppression b) .suppression (.cancel b) (decideCancel z) s :=
  suppression_reaches rfl (by simp [Request.code]) hr hz

theorem vent_reaches (hr : s.ready .suppression = true) (hz : zoneArg b = some z) :
    Reaches (.vent .suppression b) .suppression (.vent b) (decideVent z) s :=
  suppression_reaches rfl (by simp [Request.code]) hr hz

theorem restore_reaches (hr : s.ready .suppression = true) (hz : zoneArg b = some z) :
    Reaches (.restore .suppression b) .suppression (.restore b) (decideRestore z) s :=
  suppression_reaches rfl (by simp [Request.code]) hr hz
end

/-! ### The force request and the force window (R131, R141 to R144) -/

section
variable (side : Bool)

/-- The port that sends a side's half. -/
def forcePort : PortId := if side then .suppression else .guard

/-- A side's half as its port's slot holds it. -/
def forceRequest (b : Byte) : Request := if side then .forceRelease b else .concurForce b

/-- A side's half as a command. -/
def forceCommand (b : Byte) : Instr := if side then .forceRelease .suppression b else .concurForce .guard b

/-- A side's own half. -/
def ownHalf (w : ForceWindow) : Option Zone := if side then w.suppressionHalf else w.guardHalf

/-- The half of the other side. -/
def otherHalf (w : ForceWindow) : Option Zone := if side then w.guardHalf else w.suppressionHalf

/-- The window with a side's half held. -/
def withHalf (w : ForceWindow) (z : Zone) : ForceWindow :=
  if side then { w with suppressionHalf := (some z) } else { w with guardHalf := (some z) }

theorem halves_eq (w : ForceWindow) : halves w side = (ownHalf side w, otherHalf side w) := by cases side <;> rfl

theorem forcePort_ne_access : forcePort side ≠ .access := by cases side <;> nofun

theorem force_reaches {b : Byte} {z : Zone} {s : State} (hr : s.ready (forcePort side) = true) (hz : zoneArg b = some z) :
    Reaches (forceCommand side b) (forcePort side) (forceRequest side b) (decideForce side z) s := by
  refine reaches_of_zone (b := b) (d := decideForce side) ?_ ?_ hr hz
  · cases side <;> rfl
  · cases side <;> simp [permitted, Request.owner, Request.code, forcePort, forceRequest]

/-- The grounds on which a half is refused (R143). -/
def ForceWrong (z : Zone) (s : State) : Prop :=
  s.supp.window.closesAt = none ∨ (s.suppRec z).state ≠ .held ∨ (s.suppRec z).holds.abort = true
    ∨ (s.suppRec z).holds.panelHold = true ∨ (∃ y, otherHalf side s.supp.window = some y ∧ y ≠ z)
    ∨ ∃ y, ownHalf side s.supp.window = some y ∧ y ≠ z

/-- A half that is held but does not name the zone names another. -/
theorem names_another {h : Option Zone} {z : Zone} : (h.isSome = true ∧ h ≠ some z) ↔ ∃ y, h = some y ∧ y ≠ z := by
  cases h <;> simp

variable {side} {z : Zone} {s : State}

theorem decideForce_eq : decideForce side z s =
    if s.supp.window.closesAt.isNone ∨ (s.suppRec z).state ≠ .held ∨ (s.suppRec z).holds.abort ∨ (s.suppRec z).holds.panelHold
        ∨ ((otherHalf side s.supp.window).isSome ∧ otherHalf side s.supp.window ≠ some z)
        ∨ ((ownHalf side s.supp.window).isSome ∧ ownHalf side s.supp.window ≠ some z) then .refuse .wrongState []
    else if (ownHalf side s.supp.window).isSome then .read []
    else if (otherHalf side s.supp.window).isNone then .done .ok (setHalf side z s) fun _ => []
    else .done .ok (completeForce z s) (stateReply z) := by
  simp only [decideForce, halves_eq]

theorem decideForce_wrong (h : ForceWrong side z s) : decideForce side z s = .refuse .wrongState [] := by
  rw [decideForce_eq, if_pos]
  simpa only [ForceWrong, Option.isNone_iff_eq_none, names_another] using h

theorem decideForce_right (h : ¬ ForceWrong side z s) : decideForce side z s =
    if (ownHalf side s.supp.window).isSome then .read []
    else if (otherHalf side s.supp.window).isNone then .done .ok (setHalf side z s) fun _ => []
    else .done .ok (completeForce z s) (stateReply z) := by
  rw [decideForce_eq, if_neg]
  simpa only [ForceWrong, Option.isNone_iff_eq_none, names_another] using h

theorem decideForce_repeated (h : ¬ ForceWrong side z s) (ho : ownHalf side s.supp.window = some z) :
    decideForce side z s = .read [] := by
  rw [decideForce_right h, ho]
  rfl

theorem decideForce_first (h : ¬ ForceWrong side z s) (ho : ownHalf side s.supp.window = none)
    (hx : otherHalf side s.supp.window = none) : decideForce side z s = .done .ok (setHalf side z s) fun _ => [] := by
  rw [decideForce_right h, ho, hx]
  rfl

theorem decideForce_second (h : ¬ ForceWrong side z s) (ho : ownHalf side s.supp.window = none)
    (hx : otherHalf side s.supp.window = some z) : decideForce side z s = .done .ok (completeForce z s) (stateReply z) := by
  rw [decideForce_right h, ho, hx]
  rfl

variable (side z s)

/-- A half is held in the window alone (R143). -/
theorem setHalf_supp : (setHalf side z s).supp = { s.supp with window := withHalf side s.supp.window z } := by
  rw [setHalf, suppZones_noticeForce]
  rfl

theorem setHalf_frame : SameBut [.supp, .ports] s (setHalf side z s) :=
  ((supp_frame s _).mono (by decide)).push (noticeForce_frame _ _) (by decide)

theorem closeWindow_supp (c : ForceCause) : (closeWindow c s).supp = { s.supp with window := ⟨none, none, none⟩ } := by
  rw [closeWindow, suppZones_noticeForce]

/-- The record on entry to RELEASING, its confirm deadline ahead (R131). -/
def releasingRec (s : State) (z : Zone) (c : ReleaseCause) : SuppRec :=
  { s.suppRec z with state := .releasing, cause := (some c), countdown := 0,
                     deadline := (some (s.now + (s.cfg z).confirmTime * 1000)) }

/-- Entry to RELEASING after its notice is asked for. -/
def release (s : State) (z : Zone) (cause : SuppCause) (c : ReleaseCause) : State := enterReleasing z c (suppNotice z cause s)

theorem release_writes (cause : SuppCause) (c : ReleaseCause) : WritesRecord z (releasingRec s z c) s (release s z cause c) := by
  have h : enterReleasing z c (suppNotice z cause s)
      = setSuppState z (releasingRec (suppNotice z cause s) z c) (suppNotice z cause s) := rfl
  have he : releasingRec (suppNotice z cause s) z c = releasingRec s z c := by
    simp only [releasingRec, suppRec_suppNotice, cfg_suppNotice, (suppNotice_frame s z cause).now]
  rw [release, h, he]
  exact noticed_writes s z _ _

theorem release_frame (cause : SuppCause) (c : ReleaseCause) : SameBut [.supp] s (release s z cause c) := noticed_frame s z _ _

theorem completeForce_eq : completeForce z s = closeWindow .completed (release s z .forced .forced) := rfl

theorem suppRec_completeForce (y : Zone) : (completeForce z s).suppRec y = (release s z .forced .forced).suppRec y := by
  rw [completeForce_eq, suppRec_closeWindow]

theorem completeForce_frame : SameBut [.supp, .ports] s (completeForce z s) :=
  ((release_frame z s _ _).mono (by decide)).push (closeWindow_frame _ _) (by decide)

/-- No hand-on and no hold reason moves a zone in RELEASING, so the reply carries RELEASING (R143). -/
theorem stateReply_completeForce (t : State) : stateReply z (finishRequest t (completeForce z s)) = byte1 SuppState.releasing.code := by
  have h : ((completeForce z s).suppRec z).state = .releasing := by
    rw [suppRec_completeForce, (release_writes z s _ _).own]
    rfl
  rw [stateReply, finishRequest, state_finishWith _ _ _ _ (by rw [h]; rfl), h]

theorem forceWrong_arrive (p : PortId) (r : Request) : ForceWrong side z (arrive p r s) = ForceWrong side z s := by
  simp only [ForceWrong, supp_arrive, suppRec_arrive]

/-- The qualified chord opens the window when the flag is enabled and the window CLOSED (R141). -/
theorem takeChord_supp : (takeChord s).supp = { s.supp with
    window := (if s.control.forceChord && s.supp.window.closesAt.isNone then ⟨some (s.now + 60000), none, none⟩
      else s.supp.window) } := by
  unfold takeChord
  split
  · rw [suppZones_noticeForce]
    rfl
  · rfl

theorem noticeChord_frame : SameBut [.ports] s (noticeChord s) := notify_frame _ _ _ _ _

variable {s}

/-- A chord that changes is written, with its notice (R180). -/
theorem setChord_of_ne {deadline : Option Nat} (h : s.lines.chordDeadline ≠ deadline) (spent : Bool) :
    setChord deadline spent s = noticeChord { s with lines.chordDeadline := deadline, lines.chordSpent := spent } :=
  if_neg fun k => h k.1.symm

/-- Of the lines' unit a chord that changes writes its deadline and spent mark (R180). -/
theorem setChord_lines {deadline : Option Nat} (h : s.lines.chordDeadline ≠ deadline) (spent : Bool) :
    (setChord deadline spent s).lines = { s.lines with chordDeadline := deadline, chordSpent := spent } := by
  rw [setChord_of_ne h, (noticeChord_frame _).lines]

theorem setChord_frame_of_ne {deadline : Option Nat} (h : s.lines.chordDeadline ≠ deadline) (spent : Bool) :
    SameBut [.lines, .ports] s (setChord deadline spent s) := by
  rw [setChord_of_ne h]
  exact ((lines_frame s _).mono (by decide)).push (noticeChord_frame _) (by decide)

theorem ne_none_of_reached {t : Option Nat} (h : s.reached t = true) : t ≠ none := by
  rintro rfl
  cases h
end

/-! ### The timers of the suppression unit (R130, R132, R134) -/

section
variable {s t : State} {kind : AlarmKind} {zone : Option Zone} {subject : Subject}

theorem newAlarm_congr (h : t.now = s.now) : newAlarm t kind zone subject = newAlarm s kind zone subject := by
  simp only [newAlarm, uptime_congr h]

/-- The queue after a new alarm in a full queue is a function of the queue before it (R104 to R106). -/
theorem raiseFull_queue_congr (h : t.alarms = s.alarms) (r : AlarmRec) :
    (raiseFull r t).alarms.queue = (raiseFull r s).alarms.queue := by
  have hq : t.alarms.queue = s.alarms.queue := congrArg (·.queue) h
  cases ho : reclaimable s.alarms.queue with
  | some old => rw [(raiseFull_reclaims (hq ▸ ho)).1, (raiseFull_reclaims ho).1, hq]
  | none =>
    cases hl : s.alarms.queue.getLast? with
    | none => simp only [raiseFull, hq, ho, hl]
    | some last =>
      by_cases hp : r.kind.priority < last.kind.priority
      · rw [(raiseFull_displaces (hq ▸ ho) (hq ▸ hl) hp).1, (raiseFull_displaces ho hl hp).1, hq]
      · rw [(raiseFull_overflows (hq ▸ ho) (hq ▸ hl) (Nat.not_lt.1 hp)).1, (raiseFull_overflows ho hl (Nat.not_lt.1 hp)).1, hq]

/-- The queue after a raising is a function of the alarm unit's state and the time (R102 to R106). -/
theorem raiseAlarm_queue_congr (h : t.alarms = s.alarms) (hn : t.now = s.now) :
    (raiseAlarm kind zone subject t).alarms.queue = (raiseAlarm kind zone subject s).alarms.queue := by
  have hq : t.alarms.queue = s.alarms.queue := congrArg (·.queue) h
  cases hf : s.alarms.queue.find? fun x => x.hasKey kind zone subject with
  | some r => rw [(raiseAlarm_found (hq ▸ hf)).1, (raiseAlarm_found hf).1, hq, uptime_congr hn]
  | none =>
    by_cases hl : s.alarms.queue.length < Config.alarmCap
    · rw [raiseAlarm_room (hq ▸ hf) (hq ▸ hl), raiseAlarm_room hf hl, makeAlarm_queue, makeAlarm_queue, newAlarm_congr hn, hq]
    · rw [raiseAlarm_full (hq ▸ hf) (hq ▸ Nat.not_lt.1 hl), raiseAlarm_full hf (Nat.not_lt.1 hl), newAlarm_congr hn,
        raiseFull_queue_congr h]

variable (s) (z : Zone)

/-- The zone in RELEASE_FAULT, before the alarm is raised (R132). -/
def faulted : State :=
  setSuppState z { s.suppRec z with state := .releaseFault, deadline := none } (suppNotice z .confirmTimeout s)

theorem confirmTimedOut_eq : confirmTimedOut z s = raiseAlarm .releaseFault (some z) .none (faulted s z) := rfl

theorem faulted_frame : SameBut [.supp] s (faulted s z) := noticed_frame s z _ _

theorem confirmTimedOut_writes :
    WritesRecord z { s.suppRec z with state := .releaseFault, deadline := none } s (confirmTimedOut z s) :=
  (noticed_writes s z _ _).push (raiseAlarm_frame _ _ _ _)

theorem confirmTimedOut_queue :
    (confirmTimedOut z s).alarms.queue = (raiseAlarm .releaseFault (some z) .none s).alarms.queue := by
  rw [confirmTimedOut_eq]
  exact raiseAlarm_queue_congr (faulted_frame s z).alarms (faulted_frame s z).now

theorem confirmTimedOut_frame : SameBut [.supp, .alarms] s (confirmTimedOut z s) :=
  ((faulted_frame s z).mono (by decide)).push (raiseAlarm_frame _ _ _ _) (by decide)

/-- RELEASE_FAULT is PRESENT after the deadline when the queue has room (R132). -/
theorem confirmTimedOut_present (h : s.alarms.queue.length < 32) :
    (confirmTimedOut z s).alarmPresent .releaseFault (some z) .none = true := by
  rw [State.alarmPresent, confirmTimedOut_queue]
  exact raiseAlarm_present _ _ _ h

theorem soakDone_writes : WritesRecord z { s.suppRec z with soakComplete := true, deadline := none } s (soakDone z s) :=
  written_writes s z _ _

theorem soakDone_frame : SameBut [.supp] s (soakDone z s) := written_frame s z _ _

/-- Soak complete leaves the zone's state. -/
theorem state_soakDone : ((soakDone z s).suppRec z).state = (s.suppRec z).state := by rw [(soakDone_writes s z).own]

theorem soakDone_due : (soakDone z s).work.due
    = s.work.due ++ (if s.work.due.any (DueNotice.ofSuppression z) then [] else [.suppression z .soakComplete]) :=
  due_suppNotice _ z _

variable {s z}

theorem endsWith_countdownExpiry (h : (s.suppRec z).state = .preDischarge) (hc : (s.suppRec z).countdown = 0) :
    EndsWith (.countdownExpiry z) s (release s z .expiry .automatic) := by
  have he : exec (.countdownExpiry z) s = execCountdownExpiry z s := rfl
  exact endsWith_of_event (f := fun t => release t z .expiry .automatic) he (by simp [h, hc])

theorem endsWith_confirmTimeout (h : (s.suppRec z).state = .releasing) (hd : s.reached (s.suppRec z).deadline = true) :
    EndsWith (.confirmTimeout z) s (confirmTimedOut z s) := by
  have he : exec (.confirmTimeout z) s = execConfirmTimeout z s := rfl
  exact endsWith_of_event he (by simp [h, hd])

theorem endsWith_soakComplete (h : (s.suppRec z).state = .soak) (hd : s.reached (s.suppRec z).deadline = true) :
    EndsWith (.soakComplete z) s (soakDone z s) := by
  have he : exec (.soakComplete z) s = execSoakComplete z s := rfl
  exact endsWith_of_event he (by simp [h, hd])

theorem endsWith_chordQualifies (h : s.started = true) (hd : s.reached s.lines.chordDeadline = true) :
    EndsWith .chordQualifies s (takeChord (setChord none true s)) := by
  have he : exec .chordQualifies s = execChordQualifies s := rfl
  exact endsWith_of_event (f := fun t => takeChord (setChord none true t)) he (by simp [h, hd])

theorem endsWith_forceWindowExpired (h : s.reached s.supp.window.closesAt = true) :
    EndsWith .forceWindowExpired s (closeWindow .expired s) := by
  have he : exec .forceWindowExpired s = execForceWindowExpired s := rfl
  exact endsWith_of_event he h
end

/-! ### The sounder (R145, R181) -/

section
variable (s : State) (z : Zone)

theorem endsWith_sounderCadence : EndsWith (.sounderCadence z) s (soundCadence z s) := rfl

theorem output_soundCadence : (soundCadence z s).output z = { s.output z with sounding := cadenceLevel s z } := output_setOutput s z _

/-- The sounder sounds in the sounding part of its pattern's period (R145). -/
theorem sounding_soundCadence : ((soundCadence z s).output z).sounding = true
    ↔ (s.now - (s.output z).since) % (s.output z).pattern.cadence.1 < (s.output z).pattern.cadence.2 := by
  rw [output_soundCadence]
  exact decide_eq_true_iff

theorem soundCadence_frame : SameBut [.lines] s (soundCadence z s) := setOutput_frame s z _
end

/-! ### A port's transactions and its reset (R184, R195, R196, R203) -/

section
variable (p : PortId) (s : State)

/-- The port as its reset leaves it (R195). -/
def resetPortRec (s : State) : Port :=
  { slot := none, reply := none, notices := [resyncPortReset s], resync := false, drops := 0, link := .idle }

/-- The store as a port's reset leaves it: a write on the port's account is abandoned (R203). -/
def abandoned (p : PortId) (x : Store) : Store :=
  { x with write := (if x.write.map (·.port) = some p then none else x.write) }

theorem clearPort_eq : clearPort p s = { s with store := abandoned p s.store }.setPort p (resetPortRec s) := by
  unfold clearPort
  by_cases h : s.store.write.map (·.port) = some p
  · have hw : heldForWrite s p = true := by simpa [heldForWrite] using h
    simp only [hw, if_true, abandoned, h]
    rfl
  · have hw : heldForWrite s p = false := by simpa [heldForWrite] using h
    simp only [hw, Bool.false_eq_true, if_false, abandoned, h]
    rfl

theorem port_clearPort : (clearPort p s).port p = resetPortRec s := by rw [clearPort_eq, port_setPort]

theorem port_clearPort_ne {q : PortId} (h : q ≠ p) : (clearPort p s).port q = s.port q := by
  rw [clearPort_eq, port_setPort_ne _ _ h]
  exact port_congr rfl q

theorem store_clearPort : (clearPort p s).store = abandoned p s.store := by rw [clearPort_eq, setPort_store]

theorem clearPort_frame : SameBut [.ports, .store] s (clearPort p s) := by
  rw [clearPort_eq]
  exact ((store_frame s _).mono (by decide)).push (setPort_frame _ _ _) (by decide)

theorem access_closeWindow (c : ForceCause) : (closeWindow c s).port .access = s.port .access := rfl

variable {p}

/-- The FORCE_WINDOW notice of a closing window is placed at every port but the access port (R144, R189). -/
theorem port_closeWindow (hp : p ≠ .access) (c : ForceCause) : (closeWindow c s).port p
    = (s.port p).place ⟨.forceWindow, s.uptime, none, .none, [Config.forceCauseCode c.index]⟩ := by
  cases p with
  | access => exact absurd rfl hp
  | suppression => rfl
  | guard => rfl

theorem resetPort_access : resetPort .access s
    = s.passage.queries.foldl (fun t q => cacheDecide q.presentation (endQuery q.id t)) (clearPort .access s) := by
  have h : resetPort .access s = endAllQueries (clearPort .access s) := rfl
  rw [h, endAllQueries, (clearPort_frame .access s).passage]

variable {s}

/-- At the ports that halves come from, the reset closes an OPEN force window (R144, R195). -/
theorem resetPort_of_ne (hp : p ≠ .access) : resetPort p s
    = if s.supp.window.closesAt.isSome then closeWindow .portReset (clearPort p s) else clearPort p s := by
  rw [← (clearPort_frame p s).supp]
  cases p with
  | access => exact absurd rfl hp
  | suppression => rfl
  | guard => rfl

theorem resetPort_closed (hp : p ≠ .access) (hw : s.supp.window.closesAt = none) : resetPort p s = clearPort p s :=
  (resetPort_of_ne hp).trans (if_neg (by simp [hw]))

theorem resetPort_open (hp : p ≠ .access) (hw : s.supp.window.closesAt ≠ none) :
    resetPort p s = closeWindow .portReset (clearPort p s) :=
  (resetPort_of_ne hp).trans (if_pos (Option.isSome_iff_ne_none.2 hw))

variable (s)

/-- The window that a port's reset closes leaves its notice behind the RESYNC (R144, R195). -/
theorem port_windowClosed (hp : p ≠ .access) : ∃ n : Notice, n.kind = .forceWindow
    ∧ (closeWindow .portReset (clearPort p s)).port p
      = { slot := none, reply := none, notices := [resyncPortReset s, n], resync := false, drops := 0, link := .idle } := by
  have h := port_closeWindow (clearPort p s) hp .portReset
  rw [port_clearPort] at h
  exact ⟨_, by rfl, h⟩

theorem access_windowClosed (hp : p ≠ .access) : (closeWindow .portReset (clearPort p s)).port .access = s.port .access := by
  rw [access_closeWindow, port_clearPort_ne p s hp.symm]

theorem windowClosed_frame : SameBut [.ports, .store, .supp] s (closeWindow .portReset (clearPort p s)) :=
  ((clearPort_frame p s).mono (by decide)).push (closeWindow_frame _ _) (by decide)

theorem exec_transactionEnd_collection {bytes : List Byte} (h : (s.port p).link = .answering bytes true) :
    exec (.transactionEnd p) s = .next (s.setPort p { s.port p with reply := none, link := .idle }) := by
  have he : exec (.transactionEnd p) s = execTransactionEnd p s := rfl
  simp only [he, execTransactionEnd, h]

theorem exec_transactionEnd_other (h : ∀ bytes, (s.port p).link ≠ .answering bytes true) :
    exec (.transactionEnd p) s = .next (s.setPort p { s.port p with link := .idle }) := by
  have he : exec (.transactionEnd p) s = execTransactionEnd p s := rfl
  rw [he, execTransactionEnd]
  split
  · rename_i hl
    exact absurd hl (h _)
  · rfl
end

/-! ### The statements -/

/-- Settles O57: reset leaves no zone in PREDISCHARGE, a millisecond moves no source of a hold, and every other command ends in `Ends`. -/
theorem countdownSafeKept : Obligations.CountdownSafeKept := by
  unfold Obligations.CountdownSafeKept
  exact fun s t => step_keeps afterReset_countdownSafe (fun _ => tick_countdownSafe) (fun _ _ h => h)
    (fun _ _ => CountdownSafe.of_ends)

/-- Settles O58: reset drives no output, a millisecond changes neither outputs nor states, and every other command ends in `Ends`. -/
theorem outputsSafeKept : Obligations.OutputsSafeKept := by
  unfold Obligations.OutputsSafeKept
  exact fun s t => step_keeps afterReset_outputsSafe (fun _ => tick_outputsSafe) (fun _ _ h => h) (fun _ _ => OutputsSafe.of_ends)

/-- Settles O60: the reset record of a zone is NORMAL, its outputs are off, and the roster pool is empty. -/
theorem safeAtReset : Obligations.SafeAtReset := by
  unfold Obligations.SafeAtReset
  exact ⟨afterReset_countdownSafe _ _ _, afterReset_outputsSafe _ _ _, List.nodup_nil⟩

/-- Settles O7: the transactions' ends by the link's phase, the reset by the port and the force window. -/
theorem transactionsEndOrResetThePort : Obligations.TransactionsEndOrResetThePort := by
  unfold Obligations.TransactionsEndOrResetThePort
  intro p s
  refine ⟨fun _ => exec_transactionEnd_collection s, exec_transactionEnd_other s, rfl, resetPort p s, rfl, ?access, resetPort_closed,
    ?opened, port_clearPort p s, fun q => port_clearPort_ne p s, store_clearPort p s, clearPort_frame p s⟩
  case access =>
    rintro rfl
    exact resetPort_access s
  case opened =>
    intro hp hw
    have hsupp : (resetPort p s).supp = { s.supp with window := ⟨none, none, none⟩ } := by
      rw [resetPort_open hp hw, closeWindow_supp, (clearPort_frame p s).supp]
    refine ⟨resetPort_open hp hw, by rw [hsupp], by rw [hsupp], ?_⟩
    rw [resetPort_open hp hw]
    exact ⟨(closeWindow_frame _ _).store, port_windowClosed s hp, access_windowClosed s hp, windowClosed_frame s⟩

/-- Settles O20: the decision by the set, and the record written by whether the detector confirms the zone. -/
theorem detectionSetFollowsRequests : Obligations.DetectionSetFollowsRequests := by
  unfold Obligations.DetectionSetFollowsRequests
  intro b d z s hr hz r carries
  have hdetect := detect_reaches (d := d) hr hz
  have hclear := clearDetect_reaches (d := d) hr hz
  have hrec (q : Request) : (arrive .suppression q s).suppRec z = r := suppRec_arrive _ _ _ _
  have hothers {q : Request} {x : SuppRec} {e : State} (h : WritesRecord z x (arrive .suppression q s) e) :
      ∀ y, y ≠ z → e.suppRec y = s.suppRec y := (h.after (supp_arrive s _ q)).others
  refine ⟨fun hm => hdetect.read ?held, fun hm hl => hdetect.refused ?full, fun hm hl => ?added, fun hm => hclear.read ?absent,
    fun hm => ?dropped⟩
  case held =>
    rw [decideDetect_held (by rwa [hrec]), detectReply_arrive]
    rfl
  case full => exact decideDetect_full (by rwa [hrec]) (by rwa [hrec])
  case absent =>
    rw [decideClearDetect_absent (by rwa [hrec]), detectReply_arrive]
    rfl
  case added =>
    have htaken := hdetect.taken (decideDetect_room (by rwa [hrec]) (by rwa [hrec]))
    refine ⟨addDetector z d (arrive .suppression (.detect b d) s), htaken, ?_⟩
    have hframe := arrive_push s .suppression (.detect b d) (addDetector_frame _ z d) (m := [.supp, .ports]) (by decide) (by decide) nofun
    have hiff : Confirms (arrive .suppression (.detect b d) s) z
        ↔ (r.state = .normal ∨ r.state = .alert) ∧ (s.cfg z).coincidence ≤ r.detectors.length + 1 := by
      rw [Confirms, hrec, cfg_arrive]
    by_cases hc : Confirms (arrive .suppression (.detect b d) s) z
    · have hw := addDetector_confirms d hc
      rw [hrec, cfg_arrive] at hw
      rw [if_pos (hiff.1 hc), hw.own]
      exact ⟨rfl, rfl, ⟨rfl, rfl, rfl⟩, hothers hw, hframe⟩
    · have hw := addDetector_adds d hc
      rw [hrec] at hw
      rw [if_neg (mt hiff.2 hc), hw.own]
      exact ⟨rfl, rfl, ⟨rfl, rfl⟩, hothers hw, hframe⟩
  case dropped =>
    have hw := dropDetector_writes (arrive .suppression (.clearDetect b d) s) z d
    rw [hrec] at hw
    have htaken := hclear.taken (decideClearDetect_held (by rwa [hrec]))
    refine ⟨dropDetector z d (arrive .suppression (.clearDetect b d) s), htaken, ?_⟩
    rw [hw.own]
    exact ⟨rfl, rfl, rfl, hothers hw, arrive_push s _ _ (dropDetector_frame _ z d) (by decide) (by decide) nofun⟩

/-- Settles O22: each request by the states it takes and the doors, its effect one record written after the halves are discarded. -/
theorem cancelVentAndRestore : Obligations.CancelVentAndRestore := by
  unfold Obligations.CancelVentAndRestore
  intro b z s hr hz r
  have hcancel := cancel_reaches hr hz
  have hvent := vent_reaches hr hz
  have hrestore := restore_reaches hr hz
  have hrec (q : Request) : (arrive .suppression q s).suppRec z = r := suppRec_arrive _ _ _ _
  have hmoving (q : Request) : (arrive .suppression q s).bothMoving z = s.bothMoving z := bothMoving_arrive _ _ _ _
  have hrest (q : Request) (d : DoorId) : doorAtRest (arrive .suppression q s) d = doorAtRest s d := doorAtRest_arrive _ _ _ _
  have hcan {q : Request} : Cancellable (arrive .suppression q s) z ↔ r.state = .preDischarge ∨ r.state = .held := by
    rw [Cancellable, hrec]
  have hven {q : Request} : Ventable (arrive .suppression q s) z
      ↔ r.state = .releaseFault ∨ (r.state = .soak ∧ r.soakComplete = true) := by
    rw [Ventable, hrec]
  refine ⟨fun hp hh => hcancel.refused (decideCancel_wrong (mt hcan.1 (not_or.2 ⟨hp, hh⟩))),
    fun h hm => hcancel.refused (decideCancel_moving (hcan.2 h) (by rwa [hmoving])), fun h hm => ?cancelled, fun h hm => ?vented,
    fun h hm => hvent.refused (decideVent_moving (hven.2 h) (by rwa [hmoving])),
    fun hf hs => hvent.refused (decideVent_wrong (mt hven.1 ?notVentable)), fun hv ho hi => ?restored,
    fun hv hd => hrestore.refused (decideRestore_moving (by rwa [hrec]) (by rwa [hrest, hrest])),
    fun hv => hrestore.refused (decideRestore_wrong (by rwa [hrec]))⟩
  case notVentable =>
    rintro (h | ⟨h, hc⟩)
    · exact hf h
    · rcases hs with hs | hs
      · exact hs h
      · rw [hs] at hc
        cases hc
  case cancelled =>
    have hw := cancelZone_writes (arrive .suppression (.cancel b) s) z
    have htaken := hcancel.taken (decideCancel_taken (hcan.2 h) (by rwa [hmoving]))
    refine ⟨cancelZone z (arrive .suppression (.cancel b) s), htaken, by rw [hw.own, hrec]; rfl, ?_, fun y hy => ?_,
      cancelZone_leaves (hcan.2 h), arrive_push s _ _ (cancelZone_frame _ z) (by decide) (by decide) nofun⟩
    · rw [hw.window, window_halvesLeft, hrec, halfNames_arrive, supp_arrive]
    · rw [hw.others y hy, suppRec_halvesLeft, suppRec_arrive]
  case vented =>
    have hw := (ventZone_writes (arrive .suppression (.vent b) s) z).after (supp_arrive s _ _)
    exact ⟨_, hvent.taken (decideVent_taken (hven.2 h) (by rwa [hmoving])), by rw [hw.own, hrec], hw.window, hw.others,
      ventZone_leaves (hven.2 h), arrive_push s _ _ (ventZone_frame _ z) (by decide) (by decide) nofun⟩
  case restored =>
    have hw := (restoreZone_writes (arrive .suppression (.restore b) s) z).after (supp_arrive s _ _)
    exact ⟨_, hrestore.taken (decideRestore_taken (by rwa [hrec]) (by rwa [hrest]) (by rwa [hrest])), by rw [hw.own, hrec]; rfl,
      hw.window, hw.others, endAlarm_absent _ _ _, arrive_push s _ _ (restoreZone_frame _ z) (by decide) (by decide) nofun⟩

/-- Settles O23: the decision by its grounds and the two halves, for either side; a first half writes the window alone, a second releases
the zone and closes the window. -/
theorem forceNeedsBothHalves : Obligations.ForceNeedsBothHalves := by
  unfold Obligations.ForceNeedsBothHalves
  intro b z side s hz port c r w mine other x wrong hr
  have hforce := force_reaches side hr hz
  have hwrong : ForceWrong side z (arrive (forcePort side) (forceRequest side b) s) = wrong := forceWrong_arrive _ _ _ _ _
  have hsupp : (arrive (forcePort side) (forceRequest side b) s).supp = s.supp := supp_arrive _ _ _
  have hright (h : ¬ wrong) : ¬ ForceWrong side z (arrive (forcePort side) (forceRequest side b) s) := by rwa [hwrong]
  have hown {k : Option Zone} (h : mine = k) : ownHalf side (arrive (forcePort side) (forceRequest side b) s).supp.window = k := by
    rw [hsupp]
    exact h
  have hother {k : Option Zone} (h : other = k) : otherHalf side (arrive (forcePort side) (forceRequest side b) s).supp.window = k := by
    rw [hsupp]
    exact h
  refine ⟨fun h => hforce.refused (decideForce_wrong (hwrong.mpr h)),
    fun h hm => hforce.read (decideForce_repeated (hright h) (hown hm)), fun h hm ho => ?first, fun h hm ho => ?second⟩
  case first =>
    have he := setHalf_supp side z (arrive (forcePort side) (forceRequest side b) s)
    rw [hsupp] at he
    exact ⟨_, hforce.taken (decideForce_first (hright h) (hown hm) (hother ho)), by rw [he]; rfl, by rw [he],
      arrive_push s _ _ (setHalf_frame side z _) (by decide) (by decide) (forcePort_ne_access side)⟩
  case second =>
    have hw := (release_writes z (arrive (forcePort side) (forceRequest side b) s) .forced .forced).after hsupp
    have htaken := hforce.taken (decideForce_second (hright h) (hown hm) (hother ho))
    rw [stateReply_completeForce] at htaken
    refine ⟨_, htaken, ?_, fun y hy => ?_, ?_,
      arrive_push s _ _ (completeForce_frame z _) (by decide) (by decide) (forcePort_ne_access side)⟩
    · rw [suppRec_completeForce, hw.own, releasingRec, suppRec_arrive, cfg_arrive, now_arrive]
    · rw [suppRec_completeForce, hw.others y hy]
    · rw [completeForce_eq, closeWindow_supp]

/-- Settles O50: each of the three timers is an event that writes one record. -/
theorem suppressionDeadlinesAct : Obligations.SuppressionDeadlinesAct := by
  unfold Obligations.SuppressionDeadlinesAct
  intro z s
  refine ⟨fun h hc => ?countdown, fun h hd => ?confirm, fun t h hd ht => ?soak⟩
  case countdown =>
    have hw := release_writes z s .expiry .automatic
    exact ⟨_, endsWith_countdownExpiry h hc, hw.own, hw.others, hw.window, release_frame z s _ _⟩
  case confirm =>
    have hw := confirmTimedOut_writes s z
    exact ⟨_, endsWith_confirmTimeout h hd, hw.own, hw.others, hw.window, confirmTimedOut_queue s z, confirmTimedOut_present s z,
      confirmTimedOut_frame s z⟩
  case soak =>
    have hw := soakDone_writes s z
    have hst : ((soakDone z s).suppRec z).state = .soak := (state_soakDone s z).trans h
    have hdue : s.reached (s.suppRec z).deadline = true := by simpa only [hd, State.reached, decide_eq_true_eq] using ht
    exact ⟨_, endsWith_soakComplete h hdue, hw.own, soakDone_due s z, by rw [State.inEvacuation, hst]; rfl, by rw [hst]; rfl,
      hw.others, hw.window, soakDone_frame s z⟩

/-- Settles O51: the chord is spent and then taken by the force window; the window's time closes it. -/
theorem forceWindowOpensAndExpires : Obligations.ForceWindowOpensAndExpires := by
  unfold Obligations.ForceWindowOpensAndExpires
  intro s
  refine ⟨fun hs hd => ?chord, fun hd => ?expired⟩
  case chord =>
    have hne := ne_none_of_reached hd
    have hspent := setChord_frame_of_ne hne true
    have hlines : (takeChord (setChord none true s)).lines = { s.lines with chordDeadline := none, chordSpent := true } :=
      (takeChord_frame _).lines.trans (setChord_lines hne true)
    have hsupp := takeChord_supp (setChord none true s)
    rw [control_congr hspent.store, hspent.supp, hspent.now] at hsupp
    exact ⟨_, endsWith_chordQualifies hs hd, by rw [hlines], by rw [hlines], by rw [hlines], by rw [hsupp], by rw [hsupp],
      (hspent.mono (by decide)).push (takeChord_frame _) (by decide)⟩
  case expired =>
    have hsupp := closeWindow_supp s .expired
    exact ⟨_, endsWith_forceWindowExpired hd, by rw [hsupp], by rw [hsupp], closeWindow_frame s _⟩

/-- Settles O54: the sounder sounds in the sounding part of its pattern's period, pattern by pattern. -/
theorem sounderFollowsCadence : Obligations.SounderFollowsCadence := by
  unfold Obligations.SounderFollowsCadence
  intro z s
  have hiff := sounding_soundCadence s z
  refine ⟨_, endsWith_sounderCadence s z, fun h => ?off, fun h => ?discharge, fun h => ?warn, fun h => ?hold, fun h => ?chime,
    by rw [output_soundCadence], by rw [output_soundCadence], soundCadence_frame s z⟩
  all_goals rw [h] at hiff
  case off => exact Bool.eq_false_iff.2 fun k => absurd (hiff.1 k) (Nat.not_lt_zero _)
  case discharge => exact hiff.2 (Nat.mod_lt _ Nat.one_pos)
  case warn => exact hiff
  case hold => exact hiff
  case chime => exact hiff

end Sys2Proof.Machine.SuppressionRelease
end

section
/-! SUPPORT. The zone sweep: which zones can be swept (R152), what starting and deferring a sweep leave (R152, R153), the interval timer
(R151) and SWEEP_ALL (R160), and the statements they settle. -/
namespace Sys2Proof.Machine.ZoneSweep
open AfterHours SuppressionRelease

/-! ### Which zones can be swept (R152) -/

section
variable (s : State) (z : Zone)

theorem sweepableAside_eq : sweepableAside s z = (sweepDoorsSecured s z
    && ((s.suppRec z).state == .normal || (s.suppRec z).state == .alert || (s.suppRec z).state == .isolated)
    && s.stationOnline (outerDoor z) && s.stationOnline (innerDoor z)) := by
  unfold sweepableAside
  cases (s.suppRec z).state <;> rfl

theorem sweepableAside_iff : sweepableAside s z = true ↔
    (s.door (outerDoor z)).state = .secured ∧ (s.door (innerDoor z)).state = .secured
    ∧ ((s.suppRec z).state = .normal ∨ (s.suppRec z).state = .alert ∨ (s.suppRec z).state = .isolated)
    ∧ s.stationOnline (outerDoor z) = true ∧ s.stationOnline (innerDoor z) = true := by
  simp only [sweepableAside_eq, sweepDoorsSecured, Bool.and_eq_true, Bool.or_eq_true, beq_iff_eq, and_assoc, or_assoc]

theorem stationOnline_iff (d : DoorId) :
    s.stationOnline d = true ↔ (s.slot (loopOf (zoneOf d)) (slotOf d)).online = .online := beq_iff_eq

variable {s z}

theorem doorsSecured_of_sweepableAside (h : sweepableAside s z = true) : sweepDoorsSecured s z = true := by
  rw [sweepableAside_eq] at h
  simp only [Bool.and_eq_true] at h
  obtain ⟨⟨⟨hdoors, -⟩, -⟩, -⟩ := h
  exact hdoors

/-- Of a zone that is not under sweep, the last condition of R152. -/
theorem sweepFree_iff (h : s.sweep.inProgress.map (·.zone) ≠ some z) : sweepFree s z = true ↔
    s.sweep.inProgress = none ∧ ∀ l, s.sweep.allList = some l → l.head? = some z := by
  unfold sweepFree
  cases hp : s.sweep.inProgress with
  | some r =>
    have hne : r.zone ≠ z := by simpa [hp] using h
    simp [hne]
  | none => cases s.sweep.allList <;> simp

theorem sweepable_iff (h : s.sweep.inProgress.map (·.zone) ≠ some z) : sweepable s z = true ↔
    sweepableAside s z = true ∧ s.sweep.inProgress = none ∧ ∀ l, s.sweep.allList = some l → l.head? = some z := by
  rw [sweepable, Bool.and_eq_true, sweepFree_iff h]

theorem doorsSecured_of_sweepable (h : sweepable s z = true) : sweepDoorsSecured s z = true := by
  rw [sweepable, Bool.and_eq_true] at h
  obtain ⟨haside, -⟩ := h
  exact doorsSecured_of_sweepableAside haside

variable {t : State}

/-- The conditions of R152 but the last read the doors, the suppression records and the stations. -/
theorem sweepableAside_congr (hd : t.doors = s.doors) (hs : t.supp = s.supp) (hl : t.loops = s.loops) :
    sweepableAside t z = sweepableAside s z := by
  simp only [sweepableAside, sweepDoorsSecured, State.stationOnline, State.slot, door_congr hd, suppRec_congr hs, loop_congr hl]

/-- The zones SWEEP_ALL takes are read from the zone records and the store. -/
theorem sweepAllZones_congr (hz : t.zones = s.zones) (hs : t.store = s.store) : sweepAllZones t = sweepAllZones s := by
  simp only [sweepAllZones, zone_congr hz, excludedFlag_congr hs]

theorem mem_sweepAllZones : z ∈ sweepAllZones s ↔ (s.zone z).inService = true ∧ s.excludedFlag z = false := by
  simp [sweepAllZones, mem_allZones]
end

/-! ### A sweep is started (R153) -/

/-- A sweep as it begins, with neither reply received (R153). -/
def freshSweep (z : Zone) (kind : SweepKind) : SweepRec := ⟨z, kind, none, none, none⟩

/-- The start claims made and the sweep in progress, before the stations are sent STATUS_QUERY (R153). -/
def sweepBegun (z : Zone) (kind : SweepKind) (s : State) : State :=
  { sweepStartClaim z (s.setUnderSweep z true) with sweep.inProgress := some (freshSweep z kind) }

section
variable (s : State) (z : Zone) (kind : SweepKind)

theorem underSweep_sweepBegun : (sweepBegun z kind s).underSweep z = true := underSweep_setUnderSweep s z true

theorem zone_sweepBegun : (sweepBegun z kind s).zone z = { s.zone z with sweepMark := true, late := ReasonSet.empty } :=
  zone_setZone (s.setUnderSweep z true) z _

theorem sweepBegun_frame : SameBut [.sweep, .doors, .zones, .loops] s (sweepBegun z kind s) :=
  (((SameBut.refl _ s).push (setUnderSweep_frame s z true) (by decide)).push (setZone_frame _ z _) (by decide)).push
    (sweep_frame _ _) (by decide)

variable {s z}

/-- With both doors SECURED the sweep begins, and only the queries to its stations follow (R153). -/
theorem startSweep_secured (h : sweepDoorsSecured s z = true) : startSweep z kind s
    = ((sweepBegun z kind s).giveDoorCmd (outerDoor z) .statusQuery).giveDoorCmd (innerDoor z) .statusQuery := if_pos h

theorem startSweep_after_begun (h : sweepDoorsSecured s z = true) :
    SameBut [.loops] (sweepBegun z kind s) (startSweep z kind s) := by
  rw [startSweep_secured kind h]
  exact (giveDoorCmd_frame _ _ _).trans (giveDoorCmd_frame _ _ _)

theorem startSweep_sweep (h : sweepDoorsSecured s z = true) :
    (startSweep z kind s).sweep = { s.sweep with inProgress := some (freshSweep z kind) } := (startSweep_after_begun kind h).sweep

theorem underSweep_startSweep (h : sweepDoorsSecured s z = true) : (startSweep z kind s).underSweep z = true :=
  (underSweep_congr (startSweep_after_begun kind h).doors z).trans (underSweep_sweepBegun s z kind)

theorem zone_startSweep (h : sweepDoorsSecured s z = true) :
    (startSweep z kind s).zone z = { s.zone z with sweepMark := true, late := ReasonSet.empty } :=
  (zone_congr (startSweep_after_begun kind h).zones z).trans (zone_sweepBegun s z kind)

/-- Unlike a deferral, a sweep that begins raises no alarm (R153). -/
theorem startSweep_begins_frame (h : sweepDoorsSecured s z = true) :
    SameBut [.sweep, .doors, .zones, .loops] s (startSweep z kind s) :=
  (sweepBegun_frame s z kind).push (startSweep_after_begun kind h) (by decide)
end

/-! ### A sweep is deferred (R152) -/

section
variable (s : State) (z : Zone) (kind : SweepKind)

/-- The alarm and the notice of a deferral leave the zone records as the count left them. -/
theorem deferSweep_after_count :
    SameBut [.alarms] (setDeferrals z (min ((s.zone z).deferrals + 1) 3) s) (deferSweep z kind s) := by
  refine SameBut.push ?_ (noticeSweep_frame _ z none kind none) (by decide)
  unfold bumpDeferral
  simp only []
  split
  · exact raiseAlarm_frame _ _ _ _
  · exact .refl _ _

theorem zone_deferSweep :
    (deferSweep z kind s).zone z = { s.zone z with deferrals := min ((s.zone z).deferrals + 1) 3 } :=
  (zone_congr (deferSweep_after_count s z kind).zones z).trans (zone_setZone s z _)

variable {s z}

/-- The third deferral, and each after it, raises SWEEP_OVERDUE (R152). -/
theorem deferSweep_present (h : 2 ≤ (s.zone z).deferrals) (hl : s.alarms.queue.length < 32) :
    (deferSweep z kind s).alarmPresent .sweepOverdue (some z) .none = true := by
  have hthird : min ((s.zone z).deferrals + 1) Config.deferralLimit = Config.deferralLimit :=
    Nat.min_eq_right (Nat.succ_le_succ h)
  have hbump : bumpDeferral z s = raiseAlarm .sweepOverdue (some z) .none (setDeferrals z Config.deferralLimit s) := by
    simp only [bumpDeferral, hthird, if_true]
  rw [State.alarmPresent, deferSweep, (noticeSweep_frame _ z none kind none).alarms, hbump]
  exact raiseAlarm_present _ _ _ hl
end

/-! ### The interval timer (R151) -/

/-- The pointer has moved on and the timer restarted (R151). -/
def intervalRestarted (s : State) : State :=
  { s with sweep.pointer := s.sweep.pointer + 1, sweep.timer := some (s.now + s.partCfg.sweepInterval * 1000) }

/-- The zone at the pointer is passed over: OUT_OF_SERVICE, excluded, or under sweep (R151). -/
def PassedOver (s : State) (z : Zone) : Prop :=
  (s.zone z).inService = false ∨ s.excludedFlag z = true ∨ s.sweep.inProgress.map (·.zone) = some z

section
variable {s : State}

theorem passedOver_not_iff {z : Zone} : ¬ PassedOver s z ↔
    (s.zone z).inService = true ∧ s.excludedFlag z = false ∧ s.sweep.inProgress.map (·.zone) ≠ some z := by
  simp [PassedOver]

theorem intervalRestarted_frame (s : State) : SameBut [.sweep] s (intervalRestarted s) := sweep_frame s _

theorem intervalExpiry_passes (h : PassedOver s s.sweep.pointer) : intervalExpiry s = intervalRestarted s := by
  unfold intervalExpiry
  rcases h with hout | hex | hno
  · simp [hout, intervalRestarted]
  · simp [hex, intervalRestarted]
  · simp [hno, intervalRestarted]

theorem intervalExpiry_taken (h : ¬ PassedOver s s.sweep.pointer) : intervalExpiry s =
    if sweepable s s.sweep.pointer then startSweep s.sweep.pointer .scheduled (intervalRestarted s)
    else deferSweep s.sweep.pointer .scheduled (intervalRestarted s) := by
  obtain ⟨hin, hex, hno⟩ := passedOver_not_iff.1 h
  simp [intervalExpiry, hin, hex, hno, intervalRestarted]

theorem intervalExpiry_sweeps (h : ¬ PassedOver s s.sweep.pointer) (hs : sweepable s s.sweep.pointer = true) :
    intervalExpiry s = startSweep s.sweep.pointer .scheduled (intervalRestarted s) :=
  (intervalExpiry_taken h).trans (if_pos hs)

theorem intervalExpiry_defers (h : ¬ PassedOver s s.sweep.pointer) (hs : ¬ sweepable s s.sweep.pointer = true) :
    intervalExpiry s = deferSweep s.sweep.pointer .scheduled (intervalRestarted s) :=
  (intervalExpiry_taken h).trans (if_neg hs)

/-- Whatever becomes of the zone, of the sweep unit only the sweep in progress may then differ (R151). -/
theorem intervalExpiry_sweep (s : State) : (intervalExpiry s).sweep
    = { (intervalRestarted s).sweep with inProgress := (intervalExpiry s).sweep.inProgress } := by
  by_cases hp : PassedOver s s.sweep.pointer
  · rw [intervalExpiry_passes hp]
  · by_cases hs : sweepable s s.sweep.pointer = true
    · have hd : sweepDoorsSecured (intervalRestarted s) s.sweep.pointer = true := doorsSecured_of_sweepable (s := s) hs
      rw [intervalExpiry_sweeps hp hs, startSweep_sweep _ hd]
    · rw [intervalExpiry_defers hp hs, (deferSweep_frame _ _ _).sweep]

/-- SWEEP_INTERVAL_EXPIRY at the interval's end (R151). -/
theorem endsWith_sweepIntervalExpiry (h : s.reached s.sweep.timer = true) :
    EndsWith .sweepIntervalExpiry s (intervalExpiry s) := by
  have hc : exec .sweepIntervalExpiry s = execSweepIntervalExpiry s := rfl
  exact endsWith_of_event hc h
end

/-! ### SWEEP_ALL (R160) -/

section
variable {s : State} {z : Zone} {rest : List Zone}

/-- The sweep-all list without the zone that is taken (R160). -/
def listedRest (rest : List Zone) (s : State) : State := { s with sweep.allList := if rest = [] then none else some rest }

/-- The sweep-all takes a zone that can be swept; the rest stays listed (R160). -/
theorem sweepNext_takes (hz : (s.zone z).inService = true ∧ s.excludedFlag z = false) (hs : sweepable s z = true) :
    sweepNext (z :: rest) s = startSweep z .sweepAll (listedRest rest s) := by
  obtain ⟨hin, hex⟩ := hz
  have hd : sweepDoorsSecured (listedRest rest s) z = true := doorsSecured_of_sweepable (s := s) hs
  have hstart : (startSweep z .sweepAll (listedRest rest s)).sweep.inProgress = some (freshSweep z .sweepAll) := by
    rw [startSweep_sweep _ hd]
  rw [listedRest] at hstart ⊢
  simp [sweepNext, hin, hex, hs, hstart]

/-- The state in which SWEEP_ALL takes its first zone: the list built and the pointer at Z0 (R160). -/
def allListed (l : List Zone) (s : State) : State :=
  { s with sweep.allList := if l = [] then none else some l, sweep.pointer := 0 }

theorem startSweepAll_nil (h : sweepAllZones s = []) :
    startSweepAll s = { s with sweep.allList := none, sweep.pointer := 0 } := by
  simp only [startSweepAll, h, sweepNext]

/-- The first zone listed is swept when it can be, with the rest listed behind it (R160). -/
theorem startSweepAll_cons (h : sweepAllZones s = z :: rest) (hp : s.sweep.inProgress = none) (hf : sweepableAside s z = true) :
    startSweepAll s = startSweep z .sweepAll (listedRest rest (allListed (z :: rest) s)) := by
  have hz : z ∈ sweepAllZones s := by simp [h]
  have hs : sweepable (allListed (z :: rest) s) z = true := by
    refine (sweepable_iff (by simp [allListed, hp])).2 ⟨hf, hp, fun l hl => ?_⟩
    have hl' : z :: rest = l := Option.some.inj hl
    rw [← hl', List.head?_cons]
  have hstart : startSweepAll s = sweepNext (z :: rest) (allListed (z :: rest) s) := by
    simp only [startSweepAll, h, allListed]
  rw [hstart]
  exact sweepNext_takes (mem_sweepAllZones.1 hz) hs

/-- The state the first sweep is started in differs from the one before in the sweep unit alone. -/
theorem listed_frame (l : List Zone) (s : State) : SameBut [.sweep] s (listedRest rest (allListed l s)) :=
  (sweep_frame s _).trans (sweep_frame _ _)

theorem doorsSecured_listed (l : List Zone) (hf : sweepableAside s z = true) :
    sweepDoorsSecured (listedRest rest (allListed l s)) z = true := doorsSecured_of_sweepableAside (s := s) hf

/-- A sweep-all whose listed zones can all be swept raises no alarm. -/
theorem startSweepAll_frame (hp : s.sweep.inProgress = none) (hf : ∀ z ∈ sweepAllZones s, sweepableAside s z = true) :
    SameBut [.sweep, .doors, .zones, .loops] s (startSweepAll s) := by
  cases h : sweepAllZones s with
  | nil =>
    rw [startSweepAll_nil h]
    exact (sweep_frame s _).mono (by decide)
  | cons z rest =>
    have hz : sweepableAside s z = true := hf z (by simp [h])
    rw [startSweepAll_cons h hp hz]
    exact ((listed_frame _ s).mono (by decide)).trans (startSweep_begins_frame _ (doorsSecured_listed _ hz))

theorem startSweepAll_pointer (hp : s.sweep.inProgress = none) (hf : ∀ z ∈ sweepAllZones s, sweepableAside s z = true) :
    (startSweepAll s).sweep.pointer = 0 := by
  cases h : sweepAllZones s with
  | nil => rw [startSweepAll_nil h]
  | cons z rest =>
    have hz : sweepableAside s z = true := hf z (by simp [h])
    rw [startSweepAll_cons h hp hz, startSweep_sweep _ (doorsSecured_listed _ hz)]
    rfl

theorem decideSweepAll_wrong (h : s.sweep.inProgress ≠ none ∨ s.sweep.allList ≠ none) :
    decideSweepAll s = .refuse .wrongState [] :=
  if_pos (by simpa only [Option.isSome_iff_ne_none] using h)

theorem decideSweepAll_unfit (hp : s.sweep.inProgress = none) (ha : s.sweep.allList = none)
    (h : ∃ z ∈ sweepAllZones s, sweepableAside s z = false) :
    decideSweepAll s = .refuse .notSweepable (zoneList ((sweepAllZones s).filter fun z => !sweepableAside s z)) := by
  have hne : ((sweepAllZones s).filter fun z => !sweepableAside s z) ≠ [] := by simpa using h
  simp [decideSweepAll, hp, ha, hne]

theorem decideSweepAll_fit (hp : s.sweep.inProgress = none) (ha : s.sweep.allList = none)
    (h : ∀ z ∈ sweepAllZones s, sweepableAside s z = true) :
    decideSweepAll s = .done .ok (startSweepAll s) fun _ => zoneList (sweepAllZones s) := by
  have hnil : ((sweepAllZones s).filter fun z => !sweepableAside s z) = [] := by simpa using h
  simp [decideSweepAll, hp, ha, hnil]

/-- SWEEP_ALL at the READY guard port is decided there (R184, R185). -/
theorem sweepAll_reaches (hr : s.ready .guard = true) : Reaches (.sweepAll .guard) .guard .sweepAll decideSweepAll s := by
  have hc : exec (.sweepAll .guard) s = request .guard .sweepAll decideSweepAll s := rfl
  exact hc.trans (request_decided rfl hr)

theorem sweepAllZones_arrive (p : PortId) (r : Request) : sweepAllZones (arrive p r s) = sweepAllZones s :=
  sweepAllZones_congr (zones_arrive s p r) (store_arrive s p r)

theorem sweepableAside_arrive (p : PortId) (r : Request) : sweepableAside (arrive p r s) = sweepableAside s :=
  funext fun _ => sweepableAside_congr (doors_arrive s p r) (supp_arrive s p r) (loops_arrive s p r)
end

/-! ### The statements -/

/-- Settles O30: the decision by what is in progress and by the listed zones; the first zone listed is the one whose sweep begins. -/
theorem sweepAllListsZones : Obligations.SweepAllListsZones := by
  unfold Obligations.SweepAllListsZones
  intro s hr listed online fit zones
  have hlisted : listed = sweepAllZones s := rfl
  have hfit : fit = sweepableAside s := funext fun z => (sweepableAside_eq s z).symm
  clear_value listed fit
  subst hlisted hfit
  have hreach := sweepAll_reaches hr
  have hsweep := sweep_arrive s .guard .sweepAll
  have hzones := sweepAllZones_arrive (s := s) .guard .sweepAll
  have haside := sweepableAside_arrive (s := s) .guard .sweepAll
  refine ⟨fun h => hreach.refused (decideSweepAll_wrong (by rwa [hsweep])), fun hp ha h => hreach.refused ?unfit, fun hp ha h => ?fit⟩
  case unfit =>
    rw [decideSweepAll_unfit (by rwa [hsweep]) (by rwa [hsweep]) (by rwa [hzones, haside]), hzones, haside]
    rfl
  case fit =>
    have hp' : (arrive .guard .sweepAll s).sweep.inProgress = none := by rwa [hsweep]
    have h' : ∀ z ∈ sweepAllZones (arrive .guard .sweepAll s), sweepableAside (arrive .guard .sweepAll s) z = true := by
      rwa [hzones, haside]
    have htaken := hreach.taken (decideSweepAll_fit hp' (by rwa [hsweep]) h')
    rw [hzones] at htaken
    refine ⟨startSweepAll (arrive .guard .sweepAll s), htaken, startSweepAll_pointer hp' h', fun hnil => ?_, fun z rest hcons => ?_,
      arrive_push s _ _ (startSweepAll_frame hp' h') (by decide) (by decide) nofun⟩
    · rw [startSweepAll_nil (hzones.trans hnil)]
      exact ⟨hp', rfl⟩
    · have hz : sweepableAside (arrive .guard .sweepAll s) z = true := h' z (by simp [hzones, hcons])
      have hd := doorsSecured_listed (rest := rest) (z :: rest) hz
      rw [startSweepAll_cons (hzones.trans hcons) hp' hz, startSweep_sweep _ hd, zone_startSweep _ hd]
      exact ⟨rfl, underSweep_startSweep _ hd, rfl, rfl, rfl⟩

/-- Settles O52: the expiry by whether the zone at the pointer is passed over, swept or deferred, from the state with pointer and timer
moved on. -/
theorem intervalTakesThePointer : Obligations.IntervalTakesThePointer := by
  unfold Obligations.IntervalTakesThePointer
  intro s hr z online fit
  have hsweep := intervalExpiry_sweep s
  have hframe := intervalRestarted_frame s
  have hfit (hno : s.sweep.inProgress.map (·.zone) ≠ some z) : sweepable s z = true ↔ fit := by
    simp only [sweepable_iff hno, sweepableAside_iff, stationOnline_iff, and_assoc, fit, online]
  refine ⟨intervalExpiry s, endsWith_sweepIntervalExpiry hr, by rw [hsweep]; rfl, by rw [hsweep]; rfl, fun h => ?passed,
    fun hin hex hno => ⟨fun hf => ?swept, fun hf => ?deferred⟩⟩
  case passed =>
    rw [intervalExpiry_passes h]
    exact ⟨hframe, rfl⟩
  case swept =>
    have hs := (hfit hno).2 hf
    have hd : sweepDoorsSecured (intervalRestarted s) z = true := doorsSecured_of_sweepable (s := s) hs
    rw [intervalExpiry_sweeps (passedOver_not_iff.2 ⟨hin, hex, hno⟩) hs, startSweep_sweep _ hd, zone_startSweep _ hd]
    exact ⟨rfl, underSweep_startSweep _ hd, rfl, rfl, (hframe.mono (by decide)).trans (startSweep_begins_frame _ hd)⟩
  case deferred =>
    have hs := mt (hfit hno).1 hf
    rw [intervalExpiry_defers (passedOver_not_iff.2 ⟨hin, hex, hno⟩) hs, zone_deferSweep, (deferSweep_frame _ _ _).sweep]
    exact ⟨rfl, rfl, deferSweep_present (s := intervalRestarted s) _,
      (hframe.mono (by decide)).push (deferSweep_frame _ _ _) (by decide)⟩

end Sys2Proof.Machine.ZoneSweep
end

section
/-! SUPPORT. The field loops: the exchange a loop begins and its frame (R168, R211), what a station that is heard leaves of its loop
(R166 to R169), the overflow flag (R173), and the statements they settle. -/
namespace Sys2Proof.Machine.FieldLoops
open AfterHours SuppressionRelease

/-! ### The exchange a loop chooses (R168) -/

section
variable {x : Loop}

/-- The command sent ahead of the poll round: the first queued whose station is ONLINE. -/
def firstQueued (x : Loop) : Option LoopCmd := x.queue.find? fun c => (nth x.slots c.slot).online == .online

/-- The station whose turn it is in the poll round. -/
def nextTurn (x : Loop) : Option SlotId := (pollOrder x.lastPolled).find? fun a => (nth x.slots a).online != .absent

/-- The command queued for a station, which its turn carries when it is OFFLINE. -/
def queuedFor (x : Loop) (a : SlotId) : Option CmdBody := (x.queue.find? fun c => c.slot == a).map (·.body)

theorem chooseExchange_queued {c : LoopCmd} (hq : firstQueued x = some c) :
    chooseExchange x = some (⟨c.slot, some c.body⟩, false) := by
  rw [firstQueued] at hq
  simp only [chooseExchange, hq]

theorem chooseExchange_poll {a : SlotId} (hq : firstQueued x = none) (ht : nextTurn x = some a) (ha : (nth x.slots a).online = .online) :
    chooseExchange x = some (⟨a, none⟩, true) := by
  rw [firstQueued] at hq
  rw [nextTurn] at ht
  simp [chooseExchange, hq, ht, ha]

theorem chooseExchange_offline {a : SlotId} (hq : firstQueued x = none) (ht : nextTurn x = some a)
    (ha : (nth x.slots a).online = .offline) : chooseExchange x = some (⟨a, queuedFor x a⟩, true) := by
  rw [firstQueued] at hq
  rw [nextTurn] at ht
  simp [chooseExchange, hq, ht, ha, queuedFor]

theorem chooseExchange_none (hq : firstQueued x = none) (ht : nextTurn x = none) : chooseExchange x = none := by
  rw [firstQueued] at hq
  rw [nextTurn] at ht
  simp only [chooseExchange, hq, ht]
end

/-! ### The exchange begins (R168, R169, R211) -/

section
variable (l : LoopId) (s : State)

/-- A loop as it begins an exchange, with the address last polled. -/
def begun (x : Loop) (e : Exchange) (last : Nat) : Loop :=
  { x with exchange := some e, sent := Exchange.frame e, lastPolled := last, queue := x.queue.map (markInFlight e) }

variable {l s}

theorem loop_beginExchange {e : Exchange} {turn : Bool} (h : chooseExchange (s.loop l) = some (e, turn)) :
    (beginExchange l s).loop l = begun (s.loop l) e (if turn then e.slot.val + 1 else (s.loop l).lastPolled) := by
  simp [beginExchange, h, begun]

theorem beginExchange_none (h : chooseExchange (s.loop l) = none) : beginExchange l s = s := by
  simp only [beginExchange, h]

theorem loop_beginExchange_ne {k : LoopId} (h : k ≠ l) : (beginExchange l s).loop k = s.loop k := by
  cases hc : chooseExchange (s.loop l) with
  | none => rw [beginExchange_none hc]
  | some e =>
    simp only [beginExchange, hc]
    exact loop_setLoop_ne _ _ h

theorem endsWith_loopExchange (hr : (s.loop l).state = .running) (he : (s.loop l).exchange = none) :
    EndsWith (.loopExchange l) s (beginExchange l s) :=
  endsWith_of_event (b := (s.loop l).state == .running && (s.loop l).exchange.isNone) rfl (by simp [hr, he])

/-- The frame sent: the address marked, then command, data and CRC-16 unmarked (R211). -/
theorem frame_eq (x : Exchange) : Exchange.frame x = ⟨true, BitVec.ofNat 8 (x.slot.val + 1)⟩
    :: (cmdBytes x.body ++ crc16Bytes (Exchange.bytes x)).map fun b => ⟨false, b⟩ := by
  simp [Exchange.frame, Exchange.bytes, byte1]

theorem frame_bytes (x : Exchange) : (Exchange.frame x).map (·.byte) = Exchange.bytes x ++ crc16Bytes (Exchange.bytes x) := by
  rw [frame_eq]
  simp [Exchange.bytes, byte1, Function.comp_def]

theorem frame_marks (x : Exchange) : ((Exchange.frame x).map (·.addressMark)).head? = some true
    ∧ true ∉ ((Exchange.frame x).drop 1).map (·.addressMark) := by
  rw [frame_eq]
  simp
end

/-! ### One loop after one operation -/

section
variable (s : State) (l : LoopId) (a : SlotId)

theorem loop_setSlot (x : Slot) : (s.setSlot l a x).loop l = { s.loop l with slots := put (s.loop l).slots a x } := loop_setLoop _ _ _

/-- A command given joins the queue of a RUNNING loop, unless its station is ABSENT (R164, R165, R169). -/
theorem loop_giveCmd (b : CmdBody) : (s.giveCmd l a b).loop l = { s.loop l with
    queue := (if (s.loop l).state = .running ∧ (s.slot l a).online ≠ .absent then enqueueCmd (s.loop l).queue a b
      else (s.loop l).queue) } := by
  unfold State.giveCmd
  split
  · exact loop_setLoop _ _ _
  · rfl

theorem slot_giveCmd (b : CmdBody) (y : SlotId) : (s.giveCmd l a b).slot l y = s.slot l y := by
  rw [State.slot, loop_giveCmd]
  rfl

/-- No command left in the queue is in flight once the one sent has left it. -/
theorem map_clear_filter (q : List LoopCmd) :
    (q.filter fun c => !c.inFlight).map (fun c => { c with inFlight := false }) = q.filter fun c => !c.inFlight := by
  refine (List.map_congr_left fun c hc => ?_).trans (List.map_id _)
  have hidle : c.inFlight = false := by simpa using (List.mem_filter.1 hc).2
  rw [← hidle]
  rfl

/-! ### A station is heard (R166 to R169) -/

/-- The state once the exchange has ended and the command sent has left the queue. -/
def answered : State := endExchange l (completeCmd l s)

theorem loop_answered : (answered s l).loop l = { s.loop l with
    exchange := none, sent := [], queue := (s.loop l).queue.filter fun c => !c.inFlight } := by
  simp [answered, endExchange, completeCmd, map_clear_filter]

theorem slot_answered (y : SlotId) : (answered s l).slot l y = s.slot l y := by
  rw [State.slot, loop_answered]
  rfl

theorem answered_frame : SameBut [.loops] s (answered s l) := (completeCmd_frame s l).trans (endExchange_frame _ l)

variable {s l a}

theorem stationHeard_present (h : (s.slot l a).online ≠ .offline) :
    stationHeard l a s = (answered s l).setSlot l a { s.slot l a with missed := 0 } := by
  rw [← slot_answered s l a] at h ⊢
  exact if_neg h

theorem stationHeard_back (h : (s.slot l a).online = .offline) : stationHeard l a s = goOnline l a (answered s l) := by
  rw [← slot_answered s l a] at h
  exact if_pos h

variable (s l a)

/-- The station is ONLINE again and a STATUS_QUERY is given (R167). -/
theorem loop_goOnline : (goOnline l a s).loop l = { s.loop l with
    slots := put (s.loop l).slots a { s.slot l a with online := .online, missed := 0 }
    queue := if (s.loop l).state = .running then enqueueCmd (s.loop l).queue a .statusQuery else (s.loop l).queue } := by
  have hloops : (goOnline l a s).loops =
      ((s.setSlot l a { s.slot l a with online := .online, missed := 0 }).giveCmd l a .statusQuery).loops :=
    (noticeSlot_frame _ _ _ _).loops.trans (endAlarm_frame _ _ _ _).loops
  rw [loop_congr hloops, loop_giveCmd, slot_setSlot, loop_setSlot]
  simp

theorem goOnline_ends : (goOnline l a s).alarmPresent .stationOffline (some (zoneAt l a)) (.station l a) = false :=
  endAlarm_absent .stationOffline (some (zoneAt l a)) (.station l a)

theorem goOnline_due : DueNotice.slot l a .online ∈ (goOnline l a s).work.due := List.mem_append_right _ List.mem_cons_self

/-- What the heard station's slot holds: no miss, and ONLINE where it was OFFLINE. -/
def heardSlot (x : Slot) : Slot := { x with missed := 0, online := if x.online = .offline then .online else x.online }

/-- The queue of a loop that has heard a station: less the command sent, and with a STATUS_QUERY on a return (R167, R168). -/
def heardQueue (x : Loop) (a : SlotId) : List LoopCmd :=
  let kept := x.queue.filter fun c => !c.inFlight
  if (nth x.slots a).online = .offline ∧ x.state = .running then enqueueCmd kept a .statusQuery else kept

/-- The loop once its station is heard. -/
theorem loop_stationHeard : (stationHeard l a s).loop l = { s.loop l with
    exchange := none, sent := [], slots := put (s.loop l).slots a (heardSlot (s.slot l a)), queue := heardQueue (s.loop l) a } := by
  by_cases h : (s.slot l a).online = .offline
  · have hn : (nth (s.loop l).slots a).online = .offline := h
    rw [stationHeard_back h, loop_goOnline, slot_answered, loop_answered]
    simp [heardSlot, heardQueue, h, hn]
  · have hn : (nth (s.loop l).slots a).online ≠ .offline := h
    rw [stationHeard_present h, loop_setSlot, loop_answered]
    simp [heardSlot, heardQueue, h, hn]

theorem slot_stationHeard : (stationHeard l a s).slot l a = heardSlot (s.slot l a) := by
  rw [State.slot, loop_stationHeard]
  exact nth_put_self _ _ _

theorem slot_stationHeard_ne {y : SlotId} (h : y ≠ a) : (stationHeard l a s).slot l y = s.slot l y := by
  rw [State.slot, loop_stationHeard]
  exact nth_put_ne _ _ h

theorem stationHeard_present_frame (h : (s.slot l a).online ≠ .offline) : SameBut [.loops] s (stationHeard l a s) := by
  rw [stationHeard_present h]
  exact (answered_frame s l).trans (setSlot_frame _ _ _ _)
end

/-! ### The overflow flag (R173) -/

section
variable (l : LoopId) (a : SlotId) (s : State)

theorem takeOverflow_frame : SameBut [.loops] s (takeOverflow l a s) := (setSlot_frame s l a _).trans (giveCmd_frame _ _ _ _)

theorem slot_takeOverflow : (takeOverflow l a s).slot l a = { s.slot l a with overflowQuery := true } := by
  rw [takeOverflow, slot_giveCmd, slot_setSlot]

variable {l a s}

theorem queue_takeOverflow (hr : (s.loop l).state = .running) (ha : (s.slot l a).online ≠ .absent) :
    ((takeOverflow l a s).loop l).queue = enqueueCmd (s.loop l).queue a .statusQuery := by
  rw [takeOverflow, loop_giveCmd, slot_setSlot, loop_setSlot]
  exact if_pos ⟨hr, ha⟩
end

/-! ### A valid reply (R171) -/

section
variable (l : LoopId) (a : SlotId) (s : State)

theorem takeReports_nil : takeReports l a [] s = s := rfl

theorem takeReports_some (y : Report) (rest : List (Option Report)) :
    takeReports l a (some y :: rest) s = takeReports l a rest (endEvent (takeReport l a y s)) := by
  rw [takeReports, List.foldl_cons, takeReports]

/-- A report out of range is passed over (R172). -/
theorem takeReports_none (rest : List (Option Report)) : takeReports l a (none :: rest) s = takeReports l a rest s := by
  rw [takeReports, List.foldl_cons, takeReports]
end

section
variable {l : LoopId} {x : Exchange} {bytes : List Byte} {f : StationFrame} {s : State}

theorem endsWith_stationReply (he : (s.loop l).exchange = some x) (hf : validReply x bytes = some f) :
    EndsWith (.stationReply l bytes) s (takeReply l x f s) := by
  have hreplied : stationReplied l bytes s = takeReply l x f s := by simp only [stationReplied, he, hf]
  rw [← hreplied]
  exact endsWith_of_event (b := (s.loop l).exchange.isSome) rfl (by rw [he]; rfl)

/-- The state after a reply's reports and overflow flag. -/
def beforeStatus (l : LoopId) (x : Exchange) (f : StationFrame) (s : State) : State :=
  let u := takeReports l x.slot f.reports (stationHeard l x.slot s)
  if f.overflow then takeOverflow l x.slot u else u

theorem beforeStatus_plain (h : f.overflow = false) :
    beforeStatus l x f s = takeReports l x.slot f.reports (stationHeard l x.slot s) := by
  simp only [beforeStatus, h, Bool.false_eq_true, if_false]

theorem beforeStatus_overflow (h : f.overflow = true) :
    beforeStatus l x f s = takeOverflow l x.slot (takeReports l x.slot f.reports (stationHeard l x.slot s)) := by
  simp only [beforeStatus, h, if_true]

theorem takeReply_plain (h : f.status = none) : takeReply l x f s = beforeStatus l x f s := by
  simp only [takeReply, beforeStatus, h]

theorem takeReply_status {r : StatusRecord} (h : f.status = some r) :
    takeReply l x f s = takeStatus l x.slot r (beforeStatus l x f s) := by
  simp only [takeReply, beforeStatus, h]
end

/-! ### The statements -/

/-- Settles O34: the exchange by what the controller chooses, and the frame from its characters. -/
theorem exchangeSendsCommandOrPoll : Obligations.ExchangeSendsCommandOrPoll := by
  unfold Obligations.ExchangeSendsCommandOrPoll
  refine ⟨fun l s hr he => ⟨beginExchange l s, endsWith_loopExchange hr he, fun c hq => ?queued,
    fun a hq ht => ⟨fun ha => ?poll, fun ha => ?offline⟩, fun hq ht => beginExchange_none (chooseExchange_none hq ht),
    fun k hk => loop_beginExchange_ne hk, beginExchange_frame s l⟩,
    fun x => ⟨Exchange.bytes x, rfl, frame_bytes x, frame_marks x⟩⟩
  case queued => exact loop_beginExchange (chooseExchange_queued hq)
  case poll => exact loop_beginExchange (chooseExchange_poll hq ht ha)
  case offline => exact loop_beginExchange (chooseExchange_offline hq ht ha)

/-- Settles O36: the station heard, OFFLINE before or not, then the reports, the overflow flag and the STATUS record in turn. -/
theorem validReplyIsTaken : Obligations.ValidReplyIsTaken := by
  unfold Obligations.ValidReplyIsTaken
  intro l x bytes f s he hf a kept back
  have hloop := loop_stationHeard s l a
  have hends := endsWith_stationReply he hf
  have hheard := stationHeard_frame s l a
  refine ⟨stationHeard l a s, by rw [hloop], by rw [hloop], slot_stationHeard s l a, fun y hy => slot_stationHeard_ne s l a hy,
    fun hb => ⟨?keptQueue, stationHeard_present_frame s l a hb⟩, fun hb => ⟨?backQueue, ?ended, ?due, hheard⟩, ?taken⟩
  case keptQueue =>
    rw [hloop]
    exact if_neg fun h => hb h.1
  case backQueue =>
    have hn : (nth (s.loop l).slots a).online = .offline := hb
    rw [hloop]
    simp only [heardQueue, hn, true_and, kept]
  case ended => rw [stationHeard_back hb]; exact goOnline_ends _ l a
  case due => rw [stationHeard_back hb]; exact goOnline_due _ l a
  case taken =>
    refine ⟨takeReports l a f.reports (stationHeard l a s), fun h => by rw [h, takeReports_nil],
      fun y h => by rw [h, takeReports_some, takeReports_nil], fun y rest h => by rw [h, takeReports_some],
      fun rest h => by rw [h, takeReports_none], (hheard.mono (by decide)).push (takeReports_holds _ l a f.reports) (by decide),
      (InputsKept.of_lines hheard.lines).trans (takeReports_inputs _ l a f.reports), beforeStatus l x f s,
      beforeStatus_plain, fun h => ?overflow, fun h => takeReply_plain h ▸ hends, fun r h => takeReply_status h ▸ hends⟩
    rw [beforeStatus_overflow h]
    exact ⟨by rw [slot_takeOverflow], takeOverflow_frame l a _, queue_takeOverflow⟩

end Sys2Proof.Machine.FieldLoops
end

section
/-! SUPPORT. The master ports: the decision of every command that sends a request, what a frame answered at once leaves of its port
(R60, R183), the requests whose arguments name nothing (R185, R186, R187), the notice queue and its fetching (R190, R191, R193), and the
statements they settle. -/
namespace Sys2Proof.Machine.MasterPorts
open AfterHours SuppressionRelease

/-! ### The commands that send a request (R183, R184, log entry 4) -/

section
variable (p : PortId) (r : Request)

/-- Each command that sends a request hands the port unit that request with its owner's decision. -/
theorem command_requests : ∃ d, ∀ s, exec (Request.command p r) s = request p r d s := by
  cases r <;> exact ⟨_, fun _ => rfl⟩

variable (s : State)

theorem port_heard (q : PortId) : (heard p s).port q = s.port q := port_congr (ports_heard s p) q

theorem passage_heard :
    (heard p s).passage = if p = .access then { s.passage with silent := false, timeouts := 0 } else s.passage := by
  unfold heard
  split <;> rfl

/-- A frame answered at once leaves its answer on the link and is heard by the passage unit (R60, R183). -/
theorem answerNow_heardAt (echo : Byte) (st : Status) :
    HeardAt p { s.port p with link := .answering (Reply.frame ⟨echo, st, []⟩) false } s (answerNow p echo st s) := by
  refine ⟨?own, fun q hq => ?others, ?passage, (answerNow_frame s p echo st).mono (by decide)⟩
  case own => rw [answerNow, port_heard, setLink, port_setPort]
  case others => rw [answerNow, port_heard, setLink, port_setPort_ne _ _ hq]
  case passage => rw [answerNow, passage_heard, (setLink_frame s p _).passage]

theorem heldForWrite_arrive : heldForWrite (arrive p r s) p = heldForWrite s p := by
  simp only [heldForWrite, store_arrive]

theorem slot_arrive : ((arrive p r s).port p).slot = some r := by rw [port_arrive]

variable {s}

/-- A request that has arrived in its slot is taken as it is from a READY port (R184, log entry 4). -/
theorem request_arrive (d : State → Decision) (hr : s.ready p = true) (hw : heldForWrite s p = false) :
    request p r d (arrive p r s) = request p r d s := by
  have hstarted : (arrive p r s).started = true := (started_arrive s p r).trans (started_of_ready hr)
  rw [request_of_waiting r d (slot_arrive p r s) ((heldForWrite_arrive p r s).trans hw) hstarted, request_of_ready r d hr]

variable {p r}

/-- A request outside its port's rights is turned away before its owner decides it (R185). -/
theorem answeredOnly_notPermitted (hr : s.ready p = true) (hp : permitted p r = false) :
    AnsweredOnly (Request.command p r) p r s .notPermitted [] := by
  obtain ⟨d, hd⟩ := command_requests p r
  rw [AnsweredOnly, hd, request_of_ready r d hr, takeRequest_notPermitted r d hp]

variable {c : Instr} {d : State → Decision} {st : Status} {payload : List Byte}

/-- The codes 20h to 2Fh are the access port's requests (R185). -/
theorem access_refuses (hc : exec c s = request .access r d s) (ho : (Request.code r).toNat / 16 = 2) (hr : s.ready .access = true)
    (hd : d (arrive .access r s) = .refuse st payload) : AnsweredOnly c .access r s st payload :=
  answeredOnly_of_refuse hc (by simp [permitted, Request.owner, ho]) hr hd

/-- The codes 40h to 4Fh are the guard port's requests (R185). -/
theorem guard_refuses (hc : exec c s = request .guard r d s) (ho : (Request.code r).toNat / 16 = 4) (hr : s.ready .guard = true)
    (hd : d (arrive .guard r s) = .refuse st payload) : AnsweredOnly c .guard r s st payload :=
  answeredOnly_of_refuse hc (by simp [permitted, Request.owner, ho]) hr hd
end

/-! ### Arguments that name no zone, door or entry (R186) -/

section
variable {b first : Byte} (s : State)

theorem ofZone_unnamed (hb : zoneArg b = none) (d : Zone → State → Decision) : ofZone b d s = .refuse .badArgument [] := by
  simp only [ofZone, hb]

theorem readOfZone_unnamed (hb : zoneArg b = none) (reply : State → Zone → List Byte) :
    readOfZone b reply s = .refuse .badArgument [] := by
  simp only [readOfZone, hb]

theorem decideReadRoster_unnamed (hb : zoneArg b = none) : decideReadRoster b first s = .refuse .badArgument [] := by
  simp only [decideReadRoster, hb]

theorem decideReadRoster_beyond (hf : 23 < first.toNat) : decideReadRoster b first s = .refuse .badArgument [] := by
  unfold decideReadRoster
  split
  · exact if_neg (Nat.not_le.2 hf)
  · rfl

theorem decideReadAlarms_beyond (hf : 31 < first.toNat) : decideReadAlarms first s = .refuse .badArgument [] :=
  if_neg (Nat.not_le.2 hf)

theorem decideReadConfig_unnamed (hb : zoneArg b = none) : decideReadConfig (.zone b) s = .refuse .badArgument [] := by
  simp only [decideReadConfig, hb]

theorem decideReadDoor_unnamed (hb : doorArg b = none) : decideReadDoor b s = .refuse .badArgument [] := by
  simp only [decideReadDoor, hb]

theorem decideHoldDoor_unnamed (hb : doorArg b = none) : decideHoldDoor b s = .refuse .badArgument [] := by
  simp only [decideHoldDoor, hb]

theorem decideSecureDoor_unnamed (hb : doorArg b = none) : decideSecureDoor b s = .refuse .badArgument [] := by
  simp only [decideSecureDoor, hb]
end

/-! ### Badges that name nobody (R187) -/

section
variable {b : Badge}

theorem badgeOk_nobody (h : b = 0 ∨ b = 0xFFFFFFFF#32) : badgeOk b = false := by
  rcases h with rfl | rfl <;> decide

variable (h : badgeOk b = false) (s : State)
include h

theorem decideVerdict_nobody {a : VerdictArgs} (ha : a.badge = b) : decideVerdict a s = .refuse .badArgument [] := by
  unfold decideVerdict
  split
  · exact if_pos (by simp [ha, h])
  · rfl

theorem cacheArg_nobody {a : CacheArgs} (ha : a.badge = b) : cacheArg s a = none := by
  unfold cacheArg
  split
  · exact if_neg (by simp [ha, h])
  · rfl

/-- One entry that names nobody refuses the whole CACHE_LOAD (R63, R187). -/
theorem decideCacheLoad_nobody {es : List CacheArgs} (hl : es.length ≤ 20) (he : ∃ a ∈ es, a.badge = b) :
    decideCacheLoad es s = .refuse .badArgument [] := by
  obtain ⟨a, ha, hab⟩ := he
  have hany : es.any (fun e => (cacheArg s e).isNone) = true :=
    List.any_eq_true.2 ⟨a, ha, by rw [cacheArg_nobody h s hab]; rfl⟩
  rw [decideCacheLoad, if_neg (Nat.not_lt.2 hl), if_pos (.inr (.inl hany))]

theorem decideCachePurge_nobody : decideCachePurge (.badge b) s = .refuse .badArgument [] := by
  simp [decideCachePurge, h]

theorem decideRemoveOccupant_nobody : decideRemoveOccupant b s = .refuse .badArgument [] := by
  simp [decideRemoveOccupant, h]

theorem subjectArg_nobody : subjectArg (.badge b) = none := by simp [subjectArg, h]

/-- A key whose subject is nobody names no record. -/
theorem findAlarm_nobody (kind zone : Byte) : findAlarm ⟨kind, zone, .badge b⟩ s = none := by
  unfold findAlarm
  rw [subjectArg_nobody h]
  split
  · rename_i hsubject
    cases hsubject
  · rfl
end

section
variable {s : State} {k : KeyArgs} (h : findAlarm k s = none)
include h

theorem decideAckAlarm_unfound (seen : Option Byte) : decideAckAlarm (.key k seen) s = .refuse .badArgument [] := by
  simp only [decideAckAlarm, h]

theorem decideClearAlarm_unfound : decideClearAlarm (.key k) s = .refuse .badArgument [] := by
  simp only [decideClearAlarm, h]
end

/-! ### The notice queue (R190, R191, R193) -/

section
variable {x : Port} (n : Notice)

theorem place_room (h : x.notices.length < 48) : x.place n = { x with notices := (x.notices ++ [n]) } := if_pos h

theorem place_full (h : 48 ≤ x.notices.length) :
    x.place n = { x with resync := true, drops := (min (x.drops + 1) 65535) } := if_neg (Nat.not_lt.2 h)

variable (s : State)

theorem fetched_plain (h : x.resync = false) : fetched s x = { x with notices := (x.notices.drop 1) } := by
  simp [fetched, h]

theorem fetched_resync (h : x.resync = true) :
    fetched s x = { x with notices := (x.notices.drop 1 ++ [resyncOverflow s x.drops]), resync := false, drops := 0 } := by
  simp [fetched, h]

theorem resyncOverflow_arrive (p : PortId) (r : Request) (k : Nat) : resyncOverflow (arrive p r s) k = resyncOverflow s k := by
  simp only [resyncOverflow, uptime_congr (now_arrive s p r)]

variable {s} {p : PortId} {n} {rest : List Notice}

/-- FETCH_NOTICE is a request of every port (R185). -/
theorem fetchNotice_reaches (hr : s.ready p = true) : Reaches (.fetchNotice p) p .fetchNotice (decideFetchNotice p) s := by
  have hc : exec (.fetchNotice p) s = request p .fetchNotice (decideFetchNotice p) s := rfl
  exact hc.trans (request_decided rfl hr)

theorem decideFetchNotice_empty (h : (s.port p).notices = []) : decideFetchNotice p s = .read [0] := by
  simp only [decideFetchNotice, h]
  rfl

theorem decideFetchNotice_head (h : (s.port p).notices = n :: rest) : decideFetchNotice p s
    = .done .ok (s.setPort p (fetched s (s.port p))) fun t => byte1 (t.port p).notices.length ++ Notice.bytes n := by
  simp only [decideFetchNotice, h]
end

/-! ### The statements -/

/-- Settles O8: the placing by the room in the queue, the fetching by the head and the resync flag. -/
theorem noticesQueueAndAreFetched : Obligations.NoticesQueueAndAreFetched := by
  unfold Obligations.NoticesQueueAndAreFetched
  refine ⟨fun x n => ⟨place_room n, place_full n⟩, fun p s hr => ?_⟩
  have hfetch := fetchNotice_reaches hr
  have hqueue : ((arrive p .fetchNotice s).port p).notices = (s.port p).notices := by rw [port_arrive]
  have hflag : ((arrive p .fetchNotice s).port p).resync = (s.port p).resync := by rw [port_arrive]
  have hdrops : ((arrive p .fetchNotice s).port p).drops = (s.port p).drops := by rw [port_arrive]
  refine ⟨fun h => hfetch.read (decideFetchNotice_empty (hqueue.trans h)), fun n rest h => ?_⟩
  refine ⟨_, hfetch.taken (decideFetchNotice_head (hqueue.trans h)), fun hsync => ?plain, fun hsync => ?resync,
    ((arrive_frame s p _).mono (by decide)).push (setPort_frame _ _ _) (by decide)⟩
  case plain =>
    rw [port_setPort, fetched_plain _ (hflag.trans hsync), hqueue, h]
    rfl
  case resync =>
    rw [port_setPort, fetched_resync _ (hflag.trans hsync), hqueue, h, hdrops, resyncOverflow_arrive]
    exact ⟨rfl, rfl, rfl⟩

/-- Settles O9: the port's rights first, then each request by the argument that names nothing. -/
theorem rightsAndRangesAreKept : Obligations.RightsAndRangesAreKept := by
  unfold Obligations.RightsAndRangesAreKept
  refine ⟨fun p r s => answeredOnly_notPermitted, fun p r s hr hp h => ?_⟩
  rcases h with ⟨b, hb, hz⟩ | ⟨b, hb, hd⟩ | ⟨b, f, hf, rfl⟩ | ⟨f, hf, rfl⟩
  case inl =>
    rcases hz with rfl | rfl | ⟨f, rfl⟩ | rfl | rfl | rfl | rfl | rfl | rfl | rfl | rfl | rfl | ⟨d, rfl | rfl⟩ | ⟨i, v, rfl⟩
    · exact answeredOnly_of_refuse rfl hp hr (readOfZone_unnamed _ hb zoneReply)
    · exact answeredOnly_of_refuse rfl hp hr (readOfZone_unnamed _ hb suppressionReply)
    · exact answeredOnly_of_refuse rfl hp hr (decideReadRoster_unnamed _ hb)
    · exact answeredOnly_of_refuse rfl hp hr (decideReadConfig_unnamed _ hb)
    all_goals exact answeredOnly_of_refuse rfl hp hr (ofZone_unnamed _ hb _)
  case inr.inl =>
    rcases hd with rfl | rfl | rfl
    · exact answeredOnly_of_refuse rfl hp hr (decideReadDoor_unnamed _ hb)
    · exact answeredOnly_of_refuse rfl hp hr (decideHoldDoor_unnamed _ hb)
    · exact answeredOnly_of_refuse rfl hp hr (decideSecureDoor_unnamed _ hb)
  case inr.inr.inl => exact answeredOnly_of_refuse rfl hp hr (decideReadRoster_beyond _ hf)
  case inr.inr.inr => exact answeredOnly_of_refuse rfl hp hr (decideReadAlarms_beyond _ hf)

/-- Settles O10: each request that carries a badge, by its owner's test of the badge. -/
theorem badBadgesAreRefused : Obligations.BadBadgesAreRefused := by
  unfold Obligations.BadBadgesAreRefused
  intro b s hb
  have h := badgeOk_nobody hb
  refine ⟨fun hr => ⟨fun a ha => ?verdict, fun es hl he => ?load, ?purge⟩,
    fun hr => ⟨?remove, fun kind zone seen => ⟨?ack, ?clear⟩⟩⟩
  case verdict => exact access_refuses rfl (by simp [Request.code]) hr (decideVerdict_nobody h _ ha)
  case load => exact access_refuses rfl (by simp [Request.code]) hr (decideCacheLoad_nobody h _ hl he)
  case purge => exact access_refuses rfl (by simp [Request.code]) hr (decideCachePurge_nobody h _)
  case remove => exact guard_refuses rfl (by simp [Request.code]) hr (decideRemoveOccupant_nobody h _)
  case ack => exact guard_refuses rfl (by simp [Request.code]) hr (decideAckAlarm_unfound (findAlarm_nobody h _ kind zone) seen)
  case clear => exact guard_refuses rfl (by simp [Request.code]) hr (decideClearAlarm_unfound (findAlarm_nobody h _ kind zone))

/-- Settles O11: BUSY as a frame answered at once; a request in its slot as the one that arrives. -/
theorem portsTakeOrTurnAway : Obligations.PortsTakeOrTurnAway := by
  unfold Obligations.PortsTakeOrTurnAway
  refine ⟨fun p r s hr hs => ?busy, fun p r s hr hw => ?waiting⟩
  case busy =>
    obtain ⟨d, hd⟩ := command_requests p r
    exact ⟨_, (hd s).trans (request_of_unready r d hr hs), answerNow_heardAt p s _ _⟩
  case waiting =>
    obtain ⟨d, hd⟩ := command_requests p r
    rw [hd, hd, request_arrive p r d hr hw]

end Sys2Proof.Machine.MasterPorts
end

section
/-! SUPPORT. The configuration store and start-up: the copy a load takes, a defaulted zone's write to the control record, what a record's load
leaves of the store (R205), the working values the end of start-up takes from it (R206), and the statements they settle. -/
namespace Sys2Proof.Machine.ConfigurationStore
open AfterHours

/-! ### The copy a load takes (R205, log entry 50) -/

section
variable {α : Type} (enc : α → List Byte) (default : α) {x : Stored α}

theorem load_second_ahead (h1 : copyGood enc x.first = true) (h2 : copyGood enc x.second = true)
    (hc : x.second.count = x.first.count + 1) :
    Stored.load enc default x = { x with useSecond := true, value := x.second.fields, loaded := true } := by
  simp only [Stored.load, h1, h2, if_pos hc]

theorem load_second_not_ahead (h1 : copyGood enc x.first = true) (h2 : copyGood enc x.second = true)
    (hc : x.second.count ≠ x.first.count + 1) :
    Stored.load enc default x = { x with useSecond := false, value := x.first.fields, loaded := true } := by
  simp only [Stored.load, h1, h2, if_neg hc]

theorem load_first_alone (h1 : copyGood enc x.first = true) (h2 : copyGood enc x.second = false) :
    Stored.load enc default x = { x with useSecond := false, value := x.first.fields, loaded := true } := by
  simp only [Stored.load, h1, h2]

theorem load_second_alone (h1 : copyGood enc x.first = false) (h2 : copyGood enc x.second = true) :
    Stored.load enc default x = { x with useSecond := true, value := x.second.fields, loaded := true } := by
  simp only [Stored.load, h1, h2]

theorem load_neither (h1 : copyGood enc x.first = false) (h2 : copyGood enc x.second = false) :
    Stored.load enc default x
      = { (Stored.commitWrite enc { x with useSecond := false } default) with loaded := true, defaulted := true } := by
  simp only [Stored.load, h1, h2]

/-- Whatever the copies, a load ends in one of three ways: the first copy taken, the second taken, or the defaults written back. -/
theorem load_cases (x : Stored α) :
    (copyGood enc x.first = true
        ∧ Stored.load enc default x = { x with useSecond := false, value := x.first.fields, loaded := true })
    ∨ (copyGood enc x.second = true
        ∧ Stored.load enc default x = { x with useSecond := true, value := x.second.fields, loaded := true })
    ∨ (copyGood enc x.first = false ∧ copyGood enc x.second = false
        ∧ Stored.load enc default x
          = { (Stored.commitWrite enc { x with useSecond := false } default) with loaded := true, defaulted := true }) := by
  cases h1 : copyGood enc x.first <;> cases h2 : copyGood enc x.second
  case false.false => exact .inr (.inr ⟨rfl, rfl, load_neither enc default h1 h2⟩)
  case false.true => exact .inr (.inl ⟨rfl, load_second_alone enc default h1 h2⟩)
  case true.false => exact .inl ⟨rfl, load_first_alone enc default h1 h2⟩
  case true.true =>
    by_cases hc : x.second.count = x.first.count + 1
    · exact .inr (.inl ⟨rfl, load_second_ahead enc default h1 h2 hc⟩)
    · exact .inl ⟨rfl, load_second_not_ahead enc default h1 h2 hc⟩

theorem commitWrite_to_second (new : α) (hu : x.useSecond = false) : x.commitWrite enc new
    = { x with second := sealedCopy enc new (x.first.count + 1), useSecond := true, value := new } := if_neg (by simp [hu])

theorem commitWrite_to_first (new : α) (hu : x.useSecond = true) : x.commitWrite enc new
    = { x with first := sealedCopy enc new (x.second.count + 1), useSecond := false, value := new } := if_pos hu

theorem commitWrite_current_good (x : Stored α) (new : α) : copyGood enc (x.commitWrite enc new).current = true := by
  obtain ⟨-, -, -, hgood, -⟩ := Stored.committed_commitWrite enc x new
  exact hgood

theorem commitWrite_loaded (x : Stored α) (new : α) : (x.commitWrite enc new).loaded = x.loaded := by
  obtain ⟨-, -, -, -, -, hloaded, -⟩ := Stored.committed_commitWrite enc x new
  exact hloaded

theorem commitWrite_defaulted (x : Stored α) (new : α) : (x.commitWrite enc new).defaulted = x.defaulted := by
  obtain ⟨-, -, -, -, -, -, hdefaulted⟩ := Stored.committed_commitWrite enc x new
  exact hdefaulted

theorem load_current_good (x : Stored α) : copyGood enc (Stored.load enc default x).current = true := by
  obtain ⟨h, e⟩ | ⟨h, e⟩ | ⟨-, -, e⟩ := load_cases enc default x <;> rw [e]
  · exact h
  · exact h
  · exact commitWrite_current_good enc _ default

theorem load_loaded (x : Stored α) : (Stored.load enc default x).loaded = true := by
  obtain ⟨-, e⟩ | ⟨-, e⟩ | ⟨-, -, e⟩ := load_cases enc default x <;> rw [e]

theorem load_defaulted_of_good (h : copyGood enc x.first = true ∨ copyGood enc x.second = true) :
    (Stored.load enc default x).defaulted = x.defaulted := by
  obtain ⟨-, e⟩ | ⟨-, e⟩ | ⟨h1, h2, -⟩ := load_cases enc default x
  · rw [e]
  · rw [e]
  · simp [h1, h2] at h

/-- A load finds what a commit onto a good record has written: the counts tell the new copy from the old. -/
theorem load_of_commitWrite {x y : Stored α} (new : α) (hgood : copyGood enc x.current = true) (hloaded : x.loaded = true)
    (h1 : y.first = (x.commitWrite enc new).first) (h2 : y.second = (x.commitWrite enc new).second)
    (hdefaulted : y.defaulted = (x.commitWrite enc new).defaulted) : Stored.load enc default y = x.commitWrite enc new := by
  have hsealed (n : Word) : copyGood enc (sealedCopy enc new n) = true := sealedCopy_good enc new n
  have hbehind (n : Word) : n ≠ n + 1 + 1 := by bv_omega
  cases hu : x.useSecond
  case false =>
    have hfirst : copyGood enc x.first = true := by simpa [Stored.current, hu] using hgood
    rw [commitWrite_to_second enc new hu] at h1 h2 hdefaulted ⊢
    rw [load_second_ahead enc default (h1 ▸ hfirst) (h2 ▸ hsealed _) (by rw [h1, h2]; rfl)]
    simp only [h1, h2, hdefaulted, hloaded]
    rfl
  case true =>
    have hsecond : copyGood enc x.second = true := by simpa [Stored.current, hu] using hgood
    rw [commitWrite_to_first enc new hu] at h1 h2 hdefaulted ⊢
    rw [load_second_not_ahead enc default (h1 ▸ hsealed _) (h2 ▸ hsecond) (by rw [h1, h2]; exact hbehind _)]
    simp only [h1, h2, hdefaulted, hloaded]
    rfl
end

/-! ### The control record in force while the records load (R205, log entry 29) -/

section
variable {s t : State}

theorem controlInForce_loaded (h : s.store.control.loaded = true) : controlInForce s = s.store.control := if_pos h

theorem controlInForce_unloaded (h : s.store.control.loaded = false) :
    controlInForce s = Stored.load ControlRec.bytes ControlRec.default s.store.control := if_neg (by simp [h])

theorem controlInForce_congr (h : t.store.control = s.store.control) : controlInForce t = controlInForce s := by
  simp only [controlInForce, h]

theorem controlInForce_is_loaded (s : State) : (controlInForce s).loaded = true := by
  cases h : s.store.control.loaded
  · rw [controlInForce_unloaded h, load_loaded]
  · rw [controlInForce_loaded h, h]

/-- The control record as a commit of the zone's flag OUT_OF_SERVICE leaves it. -/
def outOfServiceCommit (z : Zone) (x : Stored ControlRec) : Stored ControlRec :=
  x.commitWrite ControlRec.bytes { x.value with service := (put x.value.service z false) }

theorem outOfServiceCommit_value (z : Zone) (x : Stored ControlRec) :
    (outOfServiceCommit z x).value = { x.value with service := (put x.value.service z false) } := by
  unfold outOfServiceCommit Stored.commitWrite
  cases x.useSecond <;> rfl

theorem writeOutOfService_loaded (z : Zone) (h : s.store.control.loaded = true) :
    (writeOutOfService z s).store.control = outOfServiceCommit z (controlInForce s) := if_pos h

theorem writeOutOfService_unloaded (z : Zone) (h : s.store.control.loaded = false) :
    let y := outOfServiceCommit z (controlInForce s)
    (writeOutOfService z s).store.control
      = { s.store.control with first := y.first, second := y.second, defaulted := y.defaulted } := if_neg (by simp [h])

/-- Loaded or not, the control record in force takes the write: a load still to come finds it in the copies. -/
theorem controlInForce_writeOutOfService (z : Zone) (s : State) :
    controlInForce (writeOutOfService z s) = outOfServiceCommit z (controlInForce s) := by
  have hloaded : (outOfServiceCommit z (controlInForce s)).loaded = true :=
    (commitWrite_loaded _ _ _).trans (controlInForce_is_loaded s)
  cases h : s.store.control.loaded
  case true =>
    have hw := writeOutOfService_loaded z h
    rw [controlInForce_loaded (by rw [hw, hloaded]), hw]
  case false =>
    have hw := writeOutOfService_unloaded z h
    have hgood : copyGood ControlRec.bytes (controlInForce s).current = true := by
      rw [controlInForce_unloaded h, load_current_good]
    rw [controlInForce_unloaded (by rw [hw]; exact h), hw]
    exact load_of_commitWrite _ _ _ hgood (controlInForce_is_loaded s) rfl rfl rfl

theorem writeOutOfService_marks (z : Zone) (s : State) :
    (writeOutOfService z s).store.control.loaded = s.store.control.loaded
      ∧ (writeOutOfService z s).store.control.defaulted = (controlInForce s).defaulted := by
  cases h : s.store.control.loaded
  case true =>
    rw [writeOutOfService_loaded z h]
    exact ⟨(commitWrite_loaded _ _ _).trans (controlInForce_is_loaded s), commitWrite_defaulted _ _ _⟩
  case false =>
    rw [writeOutOfService_unloaded z h]
    exact ⟨h, commitWrite_defaulted _ _ _⟩
end

/-! ### The load of one record (R205) -/

section
variable (r : RecordId) (z : Zone) (s : State)

/-- A zone's record is loaded, and nothing else yet follows from it. -/
def takeZone : State :=
  { s with store.zones := put s.store.zones z (Stored.load ZoneCfg.bytes ZoneCfg.default (s.storedZone z)) }

theorem controlInForce_takeZone : controlInForce (takeZone z s) = controlInForce s := controlInForce_congr rfl

/-- A load changes nothing of the state but the store. -/
theorem loadRecord_eq : loadRecord r s = { s with store := (loadRecord r s).store } := by
  cases r with
  | part => rfl
  | control => rfl
  | zone z =>
    simp only [loadRecord]
    split <;> rfl

theorem loadRecord_frame : SameBut [.store] s (loadRecord r s) := by
  rw [loadRecord_eq]
  exact store_frame s _

/-- Of the store a zone's load changes that zone's record and, at most, the control record. -/
theorem loadRecord_zone_store : (loadRecord (.zone z) s).store
    = { (takeZone z s).store with control := (loadRecord (.zone z) s).store.control } := by
  simp only [loadRecord]
  split <;> rfl

theorem loadRecord_zone_rest : (loadRecord (.zone z) s).store.part = s.store.part
    ∧ (loadRecord (.zone z) s).store.defaultedMark = s.store.defaultedMark
    ∧ (loadRecord (.zone z) s).store.write = s.store.write := by
  rw [loadRecord_zone_store]
  exact ⟨rfl, rfl, rfl⟩

theorem loadRecord_write : (loadRecord r s).store.write = s.store.write := by
  cases r with
  | part => rfl
  | control => rfl
  | zone z =>
    obtain ⟨-, -, hwrite⟩ := loadRecord_zone_rest z s
    exact hwrite

variable {z s}

theorem loadRecord_zone_kept (h : (Stored.load ZoneCfg.bytes ZoneCfg.default (s.storedZone z)).defaulted = false) :
    loadRecord (.zone z) s = takeZone z s := if_neg (by simp [h])

theorem loadRecord_zone_defaulted (h : (Stored.load ZoneCfg.bytes ZoneCfg.default (s.storedZone z)).defaulted = true) :
    loadRecord (.zone z) s = writeOutOfService z (takeZone z s) := if_pos h

/-- The control record after the load of a defaulted zone: the write in force, and the record's own marks as they were. -/
theorem control_of_defaulted_zone (h : (Stored.load ZoneCfg.bytes ZoneCfg.default (s.storedZone z)).defaulted = true) :
    let e := loadRecord (.zone z) s
    controlInForce e = outOfServiceCommit z (controlInForce s) ∧ e.store.control.loaded = s.store.control.loaded
      ∧ e.store.control.defaulted = (controlInForce s).defaulted := by
  have hmarks := writeOutOfService_marks z (takeZone z s)
  have hforce := controlInForce_writeOutOfService z (takeZone z s)
  rw [controlInForce_takeZone] at hmarks hforce
  rw [loadRecord_zone_defaulted h]
  exact ⟨hforce, hmarks⟩

variable (z s)

theorem storedZone_loadRecord_zone :
    (loadRecord (.zone z) s).storedZone z = Stored.load ZoneCfg.bytes ZoneCfg.default (s.storedZone z) := by
  rw [State.storedZone, loadRecord_zone_store]
  exact nth_put_self _ _ _

theorem storedZone_loadRecord_zone_ne {y : Zone} (h : y ≠ z) : (loadRecord (.zone z) s).storedZone y = s.storedZone y := by
  rw [State.storedZone, loadRecord_zone_store]
  exact nth_put_ne _ _ h

theorem recordLoaded_loadRecord : recordLoaded (loadRecord r s) r = true := by
  cases r with
  | part => exact load_loaded _ _ _
  | control => exact load_loaded _ _ _
  | zone z =>
    rw [recordLoaded, storedZone_loadRecord_zone]
    exact load_loaded _ _ _
end

/-! ### The end of start-up (R206) -/

section
variable (s : State)

/-- The state with every zone's working values taken. -/
def startedZones : State := allZones.foldl startZone s

theorem startZone_frame (z : Zone) : SameBut [.zones, .supp] s (startZone s z) :=
  ((setZone_frame s _ _).mono (by decide)).push (setSuppRec_frame _ _ _) (by decide)

theorem startedZones_frame : SameBut [.zones, .supp] s (startedZones s) := foldl_frame _ startZone_frame _ _

/-- A zone's working values agree with the control record in force. -/
def ZoneStarted (z : Zone) : Prop :=
  (s.zone z).inService = nth s.control.service z ∧ (s.suppRec z).state = if s.isolationFlag z then .isolated else .normal

theorem zone_startZone (z : Zone) : (startZone s z).zone z = { s.zone z with inService := (nth s.control.service z) } :=
  zone_setZone s z _

theorem suppRec_startZone (z : Zone) :
    (startZone s z).suppRec z = { s.suppRec z with state := (if s.isolationFlag z then .isolated else .normal) } :=
  suppRec_setSuppRec _ z _

theorem startZone_starts (z : Zone) : ZoneStarted (startZone s z) z := by
  have hstore := (startZone_frame s z).store
  rw [ZoneStarted, zone_startZone, suppRec_startZone, control_congr hstore, isolationFlag_congr hstore]
  exact ⟨rfl, rfl⟩

theorem startZone_keeps {y z : Zone} (h : ZoneStarted s y) : ZoneStarted (startZone s z) y := by
  by_cases hyz : y = z
  · rw [hyz]
    exact startZone_starts s z
  · have hstore := (startZone_frame s z).store
    have hzone : (startZone s z).zone y = s.zone y := zone_setZone_ne s _ hyz
    have hsupp : (startZone s z).suppRec y = s.suppRec y := suppRec_setSuppRec_ne _ _ hyz
    rwa [ZoneStarted, hzone, hsupp, control_congr hstore, isolationFlag_congr hstore]

theorem foldl_startZone_starts {zs : List Zone} {y : Zone} (h : y ∈ zs ∨ ZoneStarted s y) :
    ZoneStarted (zs.foldl startZone s) y := by
  induction zs generalizing s with
  | nil => simpa using h
  | cons z zs ih =>
    refine ih (startZone s z) ?_
    rcases h with hmem | hs
    · rcases List.mem_cons.1 hmem with rfl | hmem
      · exact .inr (startZone_starts s _)
      · exact .inl hmem
    · exact .inr (startZone_keeps s hs)

theorem startedZones_starts (z : Zone) : ZoneStarted (startedZones s) z := foldl_startZone_starts s (.inl (mem_allZones z))

/-- A table written place by place holds at each written place what was written. -/
theorem nth_foldl_put {α : Type} {n : Nat} (g : Fin n → α) {xs : List (Fin n)} {i : Fin n} (v : Vector α n)
    (h : i ∈ xs ∨ nth v i = g i) : nth (xs.foldl (fun v a => put v a (g a)) v) i = g i := by
  induction xs generalizing v with
  | nil => simpa using h
  | cons a xs ih =>
    refine ih _ ?_
    rw [nth_put]
    split
    case isTrue e => exact .inr (congrArg g e.symm)
    case isFalse e => exact h.imp_left fun hm => (List.mem_cons.1 hm).resolve_left e

theorem startLoop_slots (l : LoopId) (a : SlotId) : nth (startLoop s l).slots a = startSlot s (doorAt l a) :=
  nth_foldl_put (fun a => startSlot s (doorAt l a)) _ (.inl (mem_allSlots a))

/-- A door's station is found where its zone's loop has it (R163). -/
theorem doorAt_loopOf_slotOf (d : DoorId) : doorAt (loopOf (zoneOf d)) (slotOf d) = d := by
  apply Fin.ext
  simp only [doorAt, loopOf, zoneOf, slotOf]
  omega

/-- What the end of start-up takes beside the zones and the slots. -/
theorem endStartUp_values : (endStartUp s).hours.schedule = (startedZones s).partCfg.schedule
    ∧ (endStartUp s).sweep.timer = some ((startedZones s).now + (startedZones s).partCfg.sweepInterval * 1000)
    ∧ ∀ k : Rail, ((endStartUp s).rail k).history = fullHistory (startedZones s) := by
  unfold endStartUp startedZones
  generalize allZones.foldl startZone s = u
  exact ⟨rfl, rfl, fun k => by cases k <;> rfl⟩

theorem endStartUp_zoneStarted (z : Zone) : ZoneStarted (endStartUp s) z := by
  have h := startedZones_starts s z
  unfold endStartUp
  unfold startedZones at h
  generalize allZones.foldl startZone s = u at h ⊢
  exact h

theorem endStartUp_loop (l : LoopId) : (endStartUp s).loop l = startLoop (startedZones s) l := by
  unfold endStartUp startedZones
  generalize allZones.foldl startZone s = u
  match l with
  | 0 => exact (loop_setLoop_ne _ (l := 1) _ (by decide)).trans (loop_setLoop _ _ _)
  | 1 => exact loop_setLoop _ _ _

theorem endStartUp_slot (d : DoorId) : (endStartUp s).slot (loopOf (zoneOf d)) (slotOf d) = startSlot (startedZones s) d := by
  rw [State.slot, endStartUp_loop, startLoop_slots, doorAt_loopOf_slotOf]

theorem endStartUp_frame : SameBut [.started, .zones, .supp, .hours, .loops, .sweep, .doors] s (endStartUp s) := by
  have hzones := startedZones_frame s
  unfold endStartUp
  unfold startedZones at hzones
  generalize allZones.foldl startZone s = u at hzones ⊢
  refine (hzones.mono (by decide)).trans fun x hx => ?_
  cases x <;> first | exact absurd (by decide) hx | rfl
end

/-! ### The step of a record's load (R205, R206) -/

section
variable {r : RecordId} {s t : State}

theorem allLoaded_congr (h : t.store = s.store) : allLoaded t = allLoaded s := by
  simp only [allLoaded, State.storedZone, h]

theorem recordLoaded_congr (h : t.store = s.store) (r : RecordId) : recordLoaded t r = recordLoaded s r := by
  cases r <;> simp only [recordLoaded, State.storedZone, h]

theorem loadStep_last (h : allLoaded (loadRecord r s) = true) : loadStep r s = endStartUp (loadRecord r s) := if_pos h

theorem loadStep_before (h : allLoaded (loadRecord r s) = false) : loadStep r s = loadRecord r s := if_neg (by simp [h])

variable (r s)

theorem loadStep_store : (loadStep r s).store = (loadRecord r s).store := by
  cases h : allLoaded (loadRecord r s)
  · rw [loadStep_before h]
  · rw [loadStep_last h, (endStartUp_frame _).store]

theorem allLoaded_loadStep : allLoaded (loadStep r s) = allLoaded (loadRecord r s) := allLoaded_congr (loadStep_store r s)

theorem loadStep_frame : SameBut [.store, .started, .zones, .supp, .hours, .loops, .sweep, .doors] s (loadStep r s) := by
  have hload := (loadRecord_frame r s).mono (m := [.store, .started, .zones, .supp, .hours, .loops, .sweep, .doors]) (by decide)
  cases h : allLoaded (loadRecord r s)
  · rwa [loadStep_before h]
  · rw [loadStep_last h]
    exact hload.push (endStartUp_frame _) (by decide)

theorem loadStep_started (h : s.started = false) : (loadStep r s).started = allLoaded (loadStep r s) := by
  rw [allLoaded_loadStep]
  cases ha : allLoaded (loadRecord r s)
  · rw [loadStep_before ha, (loadRecord_frame r s).started, h]
  · rw [loadStep_last ha]
    rfl
end

/-! ### The statements -/

/-- Settles O5: the zones by their fold, the slots by theirs, and the rest as the end of start-up writes it. -/
theorem startUpEndTakesWorkingValues : Obligations.StartUpEndTakesWorkingValues := by
  unfold Obligations.StartUpEndTakesWorkingValues
  intro s
  have hzones := startedZones_frame s
  have hstore := (endStartUp_frame s).store
  obtain ⟨hschedule, htimer, hhistory⟩ := endStartUp_values s
  rw [partCfg_congr hzones.store] at hschedule htimer
  rw [hzones.now] at htimer
  refine ⟨rfl, hschedule, htimer, fun r => ?history, fun z => ?zone, fun l => ?loop, fun d => ?slot⟩
  case history => rw [hhistory, fullHistory, hzones.now]
  case zone =>
    obtain ⟨hservice, hstate⟩ := endStartUp_zoneStarted s z
    exact ⟨control_congr hstore ▸ hservice, isolationFlag_congr hstore z ▸ hstate⟩
  case loop => rw [endStartUp_loop, startLoop]
  case slot => rw [endStartUp_slot, startSlot, cfg_congr hzones.store, ZoneCfg.stationConfigured]

/-- Settles O4: the load of a record by its copies, each kind's load by what it leaves of the store, and the last by the end of start-up. -/
theorem recordLoadTakesTheGoodCopy : Obligations.RecordLoadTakesTheGoodCopy := by
  unfold Obligations.RecordLoadTakesTheGoodCopy
  refine ⟨fun α enc default x => ⟨fun h1 h2 => ?both, fun h1 h2 => ?first, fun h1 h2 => ?second, fun h1 h2 => ?neither,
    load_defaulted_of_good enc default, load_loaded enc default x⟩, fun r s hs hr => ?step⟩
  case both =>
    split
    case isTrue hc =>
      rw [load_second_ahead enc default h1 h2 hc]
      exact ⟨rfl, rfl, rfl⟩
    case isFalse hc =>
      rw [load_second_not_ahead enc default h1 h2 hc]
      exact ⟨rfl, rfl, rfl⟩
  case first =>
    rw [load_first_alone enc default h1 h2]
    exact ⟨rfl, rfl, rfl⟩
  case second =>
    rw [load_second_alone enc default h1 h2]
    exact ⟨rfl, rfl, rfl⟩
  case neither =>
    have hload := load_neither enc default h1 h2
    exact ⟨congrArg Stored.value hload, congrArg Stored.defaulted hload, load_current_good enc default x⟩
  have hends : EndsWith (.recordLoad r) s (loadStep r s) :=
    endsWith_of_event (b := !s.started && !recordLoaded s r) rfl (by simp [hs, hr])
  have hstore := loadStep_store r s
  have hzones (z : Zone) : (loadStep r s).storedZone z = (loadRecord r s).storedZone z := storedZone_congr hstore z
  refine ⟨loadStep r s, hends, (recordLoaded_congr hstore r).trans (recordLoaded_loadRecord r s), loadStep_started r s hs, ?part,
    fun z hz => ?zone, ?control, hstore ▸ loadRecord_write r s, fun ha => ?before, fun ha => ?last, loadStep_frame r s⟩
  case part =>
    rintro rfl
    rw [hstore]
    exact ⟨rfl, hzones, rfl, rfl⟩
  case zone =>
    subst hz
    rw [hstore, hzones, controlInForce_congr (congrArg Store.control hstore)]
    obtain ⟨hpart, hmark, -⟩ := loadRecord_zone_rest z s
    refine ⟨storedZone_loadRecord_zone z s, fun y hy => (hzones y).trans (storedZone_loadRecord_zone_ne z s hy), hpart, hmark, fun hd => ?kept, fun hd => ?defaulted⟩
    case kept => exact congrArg (fun t => t.store.control) (loadRecord_zone_kept hd)
    case defaulted =>
      obtain ⟨hforce, hloaded, hdefaulted⟩ := control_of_defaulted_zone hd
      rw [hforce, outOfServiceCommit_value]
      exact ⟨Stored.committed_commitWrite _ _ _, rfl, nth_put_self _ _ _, fun y hy => nth_put_ne _ _ hy, hloaded, hdefaulted⟩
  case control =>
    rintro rfl
    rw [hstore]
    exact ⟨rfl, rfl, hzones, rfl⟩
  case before =>
    rw [allLoaded_loadStep] at ha
    rw [loadStep_before ha]
    exact loadRecord_frame r s
  case last =>
    rw [allLoaded_loadStep] at ha
    rw [hstore, ← loadRecord_eq, loadStep_last ha]

end Sys2Proof.Machine.ConfigurationStore
end

section
/-! SUPPORT. The frame layouts: a field read from the bytes that carry it (R207), the fields a mask marks (R209), the counted entries of
CACHE_LOAD and WRITE_SCHEDULE, and the reading of every request's payload (R183, R208, R209). -/
namespace Sys2Proof.Machine.FrameLayouts

/-! ### Numbers of two and four bytes (R207) -/

theorem halfBytes_joined (h : Half) : h.extractLsb' 8 8 ++ h.extractLsb' 0 8 = h :=
  (BitVec.extractLsb'_append_extractLsb'_eq_extractLsb' rfl).trans (BitVec.extractLsb'_eq_self (x := h))

theorem wordBytes_joined (w : Word) :
    w.extractLsb' 24 8 ++ w.extractLsb' 16 8 ++ w.extractLsb' 8 8 ++ w.extractLsb' 0 8 = w := by
  have hhigh : w.extractLsb' 24 8 ++ w.extractLsb' 16 8 = w.extractLsb' 16 16 :=
    BitVec.extractLsb'_append_extractLsb'_eq_extractLsb' rfl
  have hupper : w.extractLsb' 16 16 ++ w.extractLsb' 8 8 = w.extractLsb' 8 24 :=
    BitVec.extractLsb'_append_extractLsb'_eq_extractLsb' rfl
  have hwhole : w.extractLsb' 8 24 ++ w.extractLsb' 0 8 = w.extractLsb' 0 32 :=
    BitVec.extractLsb'_append_extractLsb'_eq_extractLsb' rfl
  rw [hhigh, hupper, hwhole, BitVec.extractLsb'_eq_self]

/-! ### A set of fields behind its mask (R209) -/

/-- The value whose two bytes are a set's mask. -/
def maskOf (present : List Bool) : Half := BitVec.ofNat 16 (bitsOf present)

theorem maskBytes_append (present : List Bool) (bs : List Byte) :
    maskBytes present ++ bs = (maskOf present).extractLsb' 8 8 :: (maskOf present).extractLsb' 0 8 :: bs := rfl

theorem bitsOf_cons (b : Bool) (bs : List Bool) : bitsOf (b :: bs) = b.toNat + 2 * bitsOf bs := by
  cases b <;> rfl

theorem testBit_bitsOf (present : List Bool) (i : Nat) : (bitsOf present).testBit i = present.getD i false := by
  induction present generalizing i with
  | nil => exact Nat.zero_testBit i
  | cons b bs ih =>
    have hb : b.toNat ≤ 1 := Bool.toNat_le b
    rw [bitsOf_cons]
    cases i with
    | zero =>
      have hlow : (b.toNat + 2 * bitsOf bs) % 2 = b.toNat := by omega
      rw [Nat.testBit_zero, hlow, List.getD_cons_zero]
      cases b <;> rfl
    | succ i =>
      have hrest : (b.toNat + 2 * bitsOf bs) / 2 = bitsOf bs := by omega
      rw [Nat.testBit_succ, hrest, ih, List.getD_cons_succ]

theorem bitsOf_lt (present : List Bool) : bitsOf present < 2 ^ present.length := by
  induction present with
  | nil => exact Nat.one_pos
  | cons b bs ih =>
    have hb : b.toNat ≤ 1 := Bool.toNat_le b
    rw [bitsOf_cons, List.length_cons, Nat.pow_succ]
    omega

theorem getLsbD_maskOf {present : List Bool} (h : present.length ≤ 16) (i : Nat) :
    (maskOf present).getLsbD i = present.getD i false := by
  rw [maskOf, BitVec.getLsbD_ofNat, testBit_bitsOf]
  by_cases hi : i < 16
  · rw [decide_eq_true hi, Bool.true_and]
  · rw [decide_eq_false hi, Bool.false_and, List.getD_eq_getElem?_getD, List.getElem?_eq_none (Nat.le_trans h (Nat.le_of_not_lt hi)),
      Option.getD_none]

theorem maskOf_lt {present : List Bool} {k : Nat} (h : present.length = k) : (maskOf present).toNat < 2 ^ k :=
  h ▸ Nat.lt_of_le_of_lt (Nat.mod_le _ _) (bitsOf_lt present)

theorem takeByte_fieldByte (o : Option Byte) (bs : List Byte) : takeByte o.isSome (fieldByte o ++ bs) = some (o, bs) := by
  cases o <;> rfl

theorem takeHalf_fieldHalf (o : Option Half) (bs : List Byte) : takeHalf o.isSome (fieldHalf o ++ bs) = some (o, bs) := by
  cases o with
  | none => rfl
  | some h => exact congrArg (fun v => some (some v, bs)) (halfBytes_joined h)

theorem takeByte_fieldByte_last (o : Option Byte) : takeByte o.isSome (fieldByte o) = some (o, []) := by
  rw [← takeByte_fieldByte o [], List.append_nil]

theorem takeHalf_fieldHalf_last (o : Option Half) : takeHalf o.isSome (fieldHalf o) = some (o, []) := by
  rw [← takeHalf_fieldHalf o [], List.append_nil]

/-- The part form's marks (R200). -/
def partMarks (f : PartFields) : List Bool :=
  [f.releaseWindow.isSome, f.heldOpenLimit.isSome, f.pairingWindow.isSome, f.sweepInterval.isSome, f.loopRate.isSome]

/-- The bytes of the part form's marked fields, in order. -/
def partValues (f : PartFields) : List Byte :=
  fieldByte f.releaseWindow ++ (fieldHalf f.heldOpenLimit ++ (fieldByte f.pairingWindow ++ (fieldHalf f.sweepInterval
    ++ fieldByte f.loopRate)))

theorem partFields_payload (f : PartFields) : PartFields.payload f = maskBytes (partMarks f) ++ partValues f := by
  simp only [PartFields.payload, partMarks, partValues, List.append_assoc]

theorem readPart_values (f : PartFields) : readPart (maskOf (partMarks f)) (partValues f) = some f := by
  have hbound : (maskOf (partMarks f)).toNat < 32 := maskOf_lt (k := 5) rfl
  have hmark : ∀ i, (maskOf (partMarks f)).getLsbD i = (partMarks f).getD i false := getLsbD_maskOf (Nat.le_of_ble_eq_true rfl)
  simp only [readPart, hmark, hbound]
  simp only [partMarks, partValues, List.getD_cons_zero, List.getD_cons_succ, takeByte_fieldByte, takeHalf_fieldHalf,
    takeByte_fieldByte_last, Option.bind_eq_bind, Option.bind_some, and_self, if_true]

/-- The zone form's marks (R199, R200). -/
def zoneMarks (f : ZoneFields) : List Bool :=
  [f.outerRail.isSome, f.innerRail.isSome, f.outerConfigured.isSome, f.innerConfigured.isSome, f.cap.isSome,
    f.pinAfterHours.isSome, f.travelLimit.isSome, f.loneInterval.isSome]

/-- The bytes of the zone form's marked fields, in order. -/
def zoneValues (f : ZoneFields) : List Byte :=
  fieldByte f.outerRail ++ (fieldByte f.innerRail ++ (fieldByte f.outerConfigured ++ (fieldByte f.innerConfigured
    ++ (fieldByte f.cap ++ (fieldByte f.pinAfterHours ++ (fieldHalf f.travelLimit ++ fieldByte f.loneInterval))))))

theorem zoneFields_payload (f : ZoneFields) : ZoneFields.payload f = maskBytes (zoneMarks f) ++ zoneValues f := by
  simp only [ZoneFields.payload, zoneMarks, zoneValues, List.append_assoc]

theorem readZoneFields_values (f : ZoneFields) : readZoneFields (maskOf (zoneMarks f)) (zoneValues f) = some f := by
  have hbound : (maskOf (zoneMarks f)).toNat < 256 := maskOf_lt (k := 8) rfl
  have hmark : ∀ i, (maskOf (zoneMarks f)).getLsbD i = (zoneMarks f).getD i false := getLsbD_maskOf (Nat.le_of_ble_eq_true rfl)
  simp only [readZoneFields, hmark, hbound]
  simp only [zoneMarks, zoneValues, List.getD_cons_zero, List.getD_cons_succ, takeByte_fieldByte, takeHalf_fieldHalf,
    takeByte_fieldByte_last, Option.bind_eq_bind, Option.bind_some, and_self, if_true]

/-- The suppression fields' marks (R146). -/
def suppMarks (f : SuppressionFields) : List Bool :=
  [f.coincidence.isSome, f.preDischarge.isSome, f.resume.isSome, f.confirmTime.isSome, f.soakTime.isSome]

/-- The bytes of the marked suppression fields, in order. -/
def suppValues (f : SuppressionFields) : List Byte :=
  fieldByte f.coincidence ++ (fieldByte f.preDischarge ++ (fieldByte f.resume ++ (fieldByte f.confirmTime ++ fieldHalf f.soakTime)))

theorem suppressionFields_payload (f : SuppressionFields) :
    SuppressionFields.payload f = maskBytes (suppMarks f) ++ suppValues f := by
  simp only [SuppressionFields.payload, suppMarks, suppValues, List.append_assoc]

theorem readSuppFields_values (f : SuppressionFields) : readSuppFields (maskOf (suppMarks f)) (suppValues f) = some f := by
  have hbound : (maskOf (suppMarks f)).toNat < 32 := maskOf_lt (k := 5) rfl
  have hmark : ∀ i, (maskOf (suppMarks f)).getLsbD i = (suppMarks f).getD i false := getLsbD_maskOf (Nat.le_of_ble_eq_true rfl)
  simp only [readSuppFields, hmark, hbound]
  simp only [suppMarks, suppValues, List.getD_cons_zero, List.getD_cons_succ, takeByte_fieldByte, takeHalf_fieldHalf_last,
    Option.bind_eq_bind, Option.bind_some, and_self, if_true]

/-! ### Counted entries (R63, R84) -/

/-- A count is one byte, which holds it (R209). -/
theorem toNat_count {n : Nat} (h : n < 256) : (BitVec.ofNat 8 n).toNat = n := by
  rw [BitVec.toNat_ofNat, Nat.mod_eq_of_lt h]

theorem readCacheEntries_payload (es : List CacheArgs) : readCacheEntries es.length (es.flatMap CacheArgs.payload) = some es := by
  induction es with
  | nil => rfl
  | cons e es ih =>
    simp only [List.length_cons, List.flatMap_cons, CacheArgs.payload, wordBytes, halfBytes, List.cons_append, List.nil_append,
      readCacheEntries, ih, wordBytes_joined, halfBytes_joined, Option.map_some]

theorem readWindows_payload (ws : List WindowArgs) : readWindows ws.length (ws.flatMap WindowArgs.payload) = some ws := by
  induction ws with
  | nil => rfl
  | cons w ws ih =>
    simp only [List.length_cons, List.flatMap_cons, WindowArgs.payload, halfBytes, List.cons_append, List.nil_append,
      readWindows, ih, halfBytes_joined, Option.map_some]

/-! ### Forms with alternatives (R101, R112, R113, R200, R204, R210) -/

theorem readSubject_payload (x : SubjectArgs) (bs : List Byte) : readSubject (SubjectArgs.payload x ++ bs) = some (x, bs) := by
  cases x with
  | badge b => exact congrArg (fun v => some (SubjectArgs.badge v, bs)) (wordBytes_joined b)
  | _ => rfl

theorem readKey_payload (k : KeyArgs) (bs : List Byte) : readKey (KeyArgs.payload k ++ bs) = some (k, bs) := by
  have hkey : readKey (KeyArgs.payload k ++ bs)
      = (readSubject (SubjectArgs.payload k.subject ++ bs)).map fun p => (⟨k.kind, k.zone, p.1⟩, p.2) := rfl
  rw [hkey, readSubject_payload]
  rfl

theorem readAck_payload (w : AckArgs) : readAck (Request.payload (.ackAlarm w)) = some w := by
  have hunseen (k : KeyArgs) : readAck (0#8 :: (KeyArgs.payload k ++ [0#8])) = some (.key k none) := by
    simp only [readAck, readKey_payload]
  have hseen (k : KeyArgs) (n : Byte) : readAck (0#8 :: (KeyArgs.payload k ++ [1#8, n])) = some (.key k (some n)) := by
    simp only [readAck, readKey_payload]
  rcases w with ⟨k, _ | n⟩ | _
  · exact hunseen k
  · exact hseen k n
  · rfl

theorem readClear_payload (w : ClearArgs) : readClear (Request.payload (.clearAlarm w)) = some w := by
  have hnamed (k : KeyArgs) : readClear (0#8 :: KeyArgs.payload k) = some (.key k) := by
    have hkey : readKey (KeyArgs.payload k) = some (k, []) := List.append_nil (KeyArgs.payload k) ▸ readKey_payload k []
    simp only [readClear, hkey]
  cases w with
  | key k => exact hnamed k
  | all => rfl

theorem readZoneOrAll_payload (w : ZoneOrAll) : readZoneOrAll (ZoneOrAll.payload w) = some w := by
  cases w <;> rfl

theorem readSelector_payload (w : ConfigSelector) : readSelector (Request.payload (.readConfig w)) = some w := by
  cases w <;> rfl

theorem readPassageForm_payload (w : PassageForm) : readPassageForm (Request.payload (.writePassageConfig w)) = some w := by
  cases w with
  | part f =>
    have hpart : readPassageForm (0#8 :: PartFields.payload f) = some (.part f) := by
      rw [partFields_payload, maskBytes_append]
      simp only [readPassageForm, halfBytes_joined, readPart_values, Option.map_some]
    exact hpart
  | zone z f =>
    have hzone : readPassageForm (1#8 :: z :: ZoneFields.payload f) = some (.zone z f) := by
      rw [zoneFields_payload, maskBytes_append]
      simp only [readPassageForm, halfBytes_joined, readZoneFields_values, Option.map_some]
    exact hzone

/-! ### Requests of wide, counted or masked fields (R208, R209) -/

theorem parse_verdict (a : VerdictArgs) : parseRequest 0x20 (Request.payload (.verdict a)) = some (.verdict a) := by
  have hread (q b0 b1 b2 b3 outcome role ah r1 r0 l0 l1 l2 l3 : Byte) :
      parseRequest 0x20 [q, b0, b1, b2, b3, outcome, role, ah, r1, r0, l0, l1, l2, l3]
        = some (.verdict ⟨q, b0 ++ b1 ++ b2 ++ b3, outcome, role, ah, r1 ++ r0, l0 ++ l1 ++ l2 ++ l3⟩) := rfl
  simp only [Request.payload, wordBytes, halfBytes, List.cons_append, List.nil_append, hread, wordBytes_joined, halfBytes_joined]

theorem parse_cacheLoad {es : List CacheArgs} (h : es.length ≤ 20) :
    parseRequest 0x21 (Request.payload (.cacheLoad es)) = some (.cacheLoad es) := by
  have hread (n : Byte) (bs : List Byte) : parseRequest 0x21 (n :: bs)
      = if n.toNat ≤ 20 then (readCacheEntries n.toNat bs).map .cacheLoad else none := rfl
  rw [Request.payload, hread, toNat_count (by omega), if_pos h, readCacheEntries_payload, Option.map_some]

theorem parse_writeSchedule {ws : List WindowArgs} (h : ws.length ≤ 49) :
    parseRequest 0x24 (Request.payload (.writeSchedule ws)) = some (.writeSchedule ws) := by
  have hread (n : Byte) (bs : List Byte) : parseRequest 0x24 (n :: bs) = (readWindows n.toNat bs).map .writeSchedule := rfl
  rw [Request.payload, hread, toNat_count (by omega), readWindows_payload, Option.map_some]

theorem parse_cachePurge (w : BadgeOrAll) : parseRequest 0x22 (Request.payload (.cachePurge w)) = some (.cachePurge w) := by
  cases w with
  | badge b => exact congrArg (fun v => some (Request.cachePurge (.badge v))) (wordBytes_joined b)
  | all => rfl

theorem parse_writeSuppressionConfig (z : Byte) (f : SuppressionFields) :
    parseRequest 0x3A (Request.payload (.writeSuppressionConfig z f)) = some (.writeSuppressionConfig z f) := by
  have hread (m1 m0 : Byte) (bs : List Byte) :
      parseRequest 0x3A (z :: m1 :: m0 :: bs) = (readSuppFields (m1 ++ m0) bs).map (.writeSuppressionConfig z) := rfl
  rw [Request.payload, suppressionFields_payload, maskBytes_append, hread, halfBytes_joined, readSuppFields_values, Option.map_some]

/-! ### The statement -/

/-- Settles O56: a payload with a variable part by its reader, any other by its code and its bytes. -/
theorem parseOfPayload : Obligations.ParseOfPayload := by
  unfold Obligations.ParseOfPayload
  intro r hwf
  cases r with
  | readConfig w => exact congrArg (Option.map Request.readConfig) (readSelector_payload w)
  | verdict a => exact parse_verdict a
  | cacheLoad es => exact parse_cacheLoad (of_decide_eq_true hwf)
  | cachePurge w => exact parse_cachePurge w
  | setClock v => exact congrArg (fun x => some (Request.setClock x)) (wordBytes_joined v)
  | writeSchedule ws => exact parse_writeSchedule (of_decide_eq_true hwf)
  | writePassageConfig w => exact congrArg (Option.map Request.writePassageConfig) (readPassageForm_payload w)
  | writeSuppressionConfig z f => exact parse_writeSuppressionConfig z f
  | ackAlarm w => exact congrArg (Option.map Request.ackAlarm) (readAck_payload w)
  | clearAlarm w => exact congrArg (Option.map Request.clearAlarm) (readClear_payload w)
  | removeOccupant b => exact congrArg (fun x => some (Request.removeOccupant x)) (wordBytes_joined b)
  | lockdown w => exact congrArg (Option.map Request.lockdown) (readZoneOrAll_payload w)
  | endLockdown w => exact congrArg (Option.map Request.endLockdown) (readZoneOrAll_payload w)
  | _ => rfl

end Sys2Proof.Machine.FrameLayouts
end

section
/-! SUPPORT. One step on a queue that holds commands: the front one is taken and run, the counterpart of `step_of_empty`. -/
namespace Sys2Proof.Machine.CommandQueue

/-- A step on a queue that is not empty is the meaning of its front command, on the state whose queue has lost that command. -/
theorem step_of_cons {s : State} {c : Instr} {rest : List Instr} (h : s.pending = c :: rest) :
    step s = exec c { s with pending := rest } := by simp only [step, h]

/-- Settles O1: the queue that is set is the one the step looks at, and setting its rest overwrites it. -/
theorem stepRunsFrontCommand : Obligations.StepRunsFrontCommand := by
  unfold Obligations.StepRunsFrontCommand
  intro c rest s
  have hfront : State.pending { s with pending := c :: rest } = c :: rest := rfl
  exact step_of_cons hfront

end Sys2Proof.Machine.CommandQueue
end
